-- ==== Sys2Proof/Word.lean ====
section
/-! DEFINITION. The widths of the block: the command word and the byte of a byte-wide transport. -/

namespace Sys2Proof

/-- One command word: every command is exactly one 16-bit word (30_encoding.md R70). -/
abbrev Word := BitVec 16

/-- One byte of a byte-wide transport (20_memory.md R52). -/
abbrev Byte := BitVec 8

end Sys2Proof
end

