-- ==== Sys2Proof/Config.lean ====
section
/-! DEFINITION. The parameters of 00_scope.md R5, the three agents of R7, and the free values: constants
without a body, of which nothing can be proved but their type. -/

namespace Sys2Proof

/-- `CMD_BYTE_ORDER` (R5, R52). -/
inductive ByteOrder where
  | little | big
deriving DecidableEq, Repr

/-- `PRI_ROUND`: the rounding of the compare-value formula (R5, R93). -/
inductive PriRound where
  | halfUp | halfEven | binary64 | trunc
deriving DecidableEq, Repr

/-- `AUX_ROUND`: the rounding of the native-duty formula (R5, R111). -/
inductive AuxRound where
  | halfUp | halfEven | binary64 | binary32 | trunc
deriving DecidableEq, Repr

/-- The three agents (R7). -/
inductive Agent where
  | host | carrier | auxclk
deriving DecidableEq, Repr, Inhabited

/-- The three lines of one indicator (R34, R128). -/
inductive LedColour where
  | red | green | blue
deriving DecidableEq, Repr

/-- The parameters of the block that a rule reads: arguments of the machine, not state of the block (R5, R42; log 24).
Each may have any value of its domain. -/
structure Params where
  /-- `PERIOD - 1`, so that `PERIOD` is in 1..65535 (R5, D8). -/
  periodLess1 : Fin 65535
  /-- `PRI_ROUND` (R5, D7). -/
  priRound : PriRound
  /-- `AUX_ROUND` (R5, D7). -/
  auxRound : AuxRound
  /-- `CMD_BYTE_ORDER` (R5, D2). -/
  cmdByteOrder : ByteOrder
deriving DecidableEq, Repr

/-- `PERIOD`, the carrier cycle length in timer clocks (R5). -/
def Params.period (p : Params) : Nat := p.periodLess1.val + 1

namespace Config

/-- `PERIOD - 1` of the machine that starts at reset. `PERIOD` is OPEN in 1..65535 (R5, D8), so this constant has
no body (log 4). -/
opaque periodLess1 : Fin 65535

/-- The parameters with the values of R5's table: `PERIOD` open, HALF_UP twice, LITTLE (D2, D7, D8; log 4, 5, 6). -/
def params : Params where
  periodLess1 := Config.periodLess1
  priRound := .halfUp
  auxRound := .halfUp
  cmdByteOrder := .little

/-- The `PERIOD` a conforming configuration chooses for a timer clock of `fClk` Hz:
`round_half_up(F_CLK / 25000)` (R6). No rule of the machine reads it (log 14). -/
def conformingPeriod (fClk : Rat) : Int := (fClk / 25000 + 1 / 2).floor

/-- The carrier frequency `F_CLK / PERIOD` (R6, R97). No rule of the machine reads it. -/
def carrierHz (fClk : Rat) (periodClocks : Nat) : Rat := fClk / (periodClocks : Rat)

/-- The aux cycle frequency `F_AUX / 255` (R115). No rule of the machine reads it. -/
def auxHz (fAux : Rat) : Rat := fAux / 255

/-! The draws of R21: one function for each place where a rule reads an element that may be `UNSPEC`,
applied to the state's counter `draws`, so that every step and every place has a value of its own (log 2). -/

/-- The draw for `TOP` in a `CARRIER` step (R96). -/
opaque freeTop : Nat → BitVec 16

/-- The draw for `AUX_PHASE` in an `AUXCLK` step, within 0..254 (R33, R114; log 3). -/
opaque freePhase : Nat → Fin 255

/-- The draw for `CMP_ACT` at the primary pin (R98, R174). -/
opaque freeCmpAct : Nat → BitVec 16

/-- The draw for `AUX_PHASE` at auxiliary pin `ch`, within 0..254 (R33, R116). -/
opaque freePhaseAtPin : Nat → Fin 4 → Fin 255

/-- The draw for `AUX_ACT[ch]` at auxiliary pin `ch` (R116). -/
opaque freeAuxAct : Nat → Fin 4 → BitVec 8

/-- The draw for `LED_LINE[i]` at one line of indicator `i` (R128). -/
opaque freeLedLine : Nat → Fin 4 → LedColour → BitVec 3

/-- The free choice of the agent that takes the next step (R7, R57; log 7). -/
opaque freeAgent : Nat → Agent

end Config

end Sys2Proof
end

