-- ==== Sys2Proof/Syntax.lean ====
section
/-! DEFINITION. The commands of the opcode table, one constructor per row, and the written forms that stand
for several of them (30_encoding.md R79, R84). -/

namespace Sys2Proof

/-- One command (R79). Operands are unsigned integers (R77). A percent or a colour code outside the source's
range is still a legal operand of the encoding (R81), so both are plain numbers here, and `Instr.wf` says which
fit their field. -/
inductive Instr where
  /-- CFGP, format C (R72, R90): configure the primary timer. -/
  | cfgp
  /-- SETP, format P (R73, R92): set the primary duty to `pct` percent. -/
  | setp (pct : Nat)
  /-- SETA, format A (R74, R110): set the duty of auxiliary channel `ch` to `pct` percent. -/
  | seta (ch : Fin 4) (pct : Nat)
  /-- LED, format L (R75, R125): apply the colour of code `col` to indicator `ind`. -/
  | led (ind : Fin 4) (col : Nat)
deriving DecidableEq, Repr

/-- The five colours of the source, in its order (R14, R76). -/
inductive Color where
  | off | red | green | blue | white
deriving DecidableEq, Repr

/-- The colour code of a colour (R76). -/
def Color.code : Color → Nat
  | .off => 0
  | .red => 1
  | .green => 2
  | .blue => 3
  | .white => 4

/-- The pseudo-instructions of R84. Percents may be out of range, and such a line is refused when it is
expanded. A colour is one of the five by its type. -/
inductive Pseudo where
  | fans (f1 f2 f3 f4 big : Nat)
  | leds (c1 c2 c3 c4 : Color)
  | all (f1 f2 f3 f4 big : Nat) (c1 c2 c3 c4 : Color)
  | boot
deriving DecidableEq, Repr

end Sys2Proof
end

