-- ==== Sys2Proof/WellFormed.lean ====
section
/-! DEFINITION. Which commands an assembler or an encoder may write: every operand fits its field
(30_encoding.md R73 to R75, R83). Channel and indicator numbers fit by their type. -/

namespace Sys2Proof

/-- `PCT` fits 7 bits (R73, R83). -/
def pctFits (pct : Nat) : Bool := decide (pct < 128)

/-- A colour code fits 3 bits (R75, R83). -/
def colFits (col : Nat) : Bool := decide (col < 8)

/-- The operands of the command fit their fields (R83). -/
def Instr.wf : Instr → Bool
  | .cfgp => true
  | .setp pct => pctFits pct
  | .seta _ pct => pctFits pct
  | .led _ col => colFits col

end Sys2Proof
end

