-- ==== Sys2Proof/Decode.lean ====
section
/-! DEFINITION. The decoder of 30_encoding.md R78, total on all 65536 words, the encoder of the formats of
R72 to R75, and the byte order of 20_memory.md R52. -/

namespace Sys2Proof

/-- Why a word is `Illegal` (R80). -/
inductive DecodeError where
  /-- R80 (a): `OP` is 0, 5, 6 or 7. -/
  | reservedOp (op : Nat)
  /-- R80 (b): a reserved bit of the format of this mnemonic is 1. -/
  | reservedBits (mnemonic : String)
  /-- Fewer than the two bytes of a word (R52). -/
  | halfWord
deriving DecidableEq, Repr

/-- The field `w[lo + len - 1 : lo]` as an unsigned integer (R8, R77). -/
def field (w : Word) (lo len : Nat) : Nat := (w.extractLsb' lo len).toNat

/-- A two-bit channel or indicator number at bits 9:8 (R74, R75): every value is in range. -/
def field98 (w : Word) : Fin 4 := (w.extractLsb' 8 2).toFin

/-- Decode one word (R78). -/
def decode (w : Word) : Except DecodeError Instr :=
  match field w 13 3 with
  | 1 => if field w 0 13 = 0 then .ok .cfgp else .error (.reservedBits "CFGP")
  | 2 => if field w 7 6 = 0 then .ok (.setp (field w 0 7)) else .error (.reservedBits "SETP")
  | 3 =>
    if field w 10 3 = 0 ∧ field w 7 1 = 0 then .ok (.seta (field98 w) (field w 0 7))
    else .error (.reservedBits "SETA")
  | 4 =>
    if field w 10 3 = 0 ∧ field w 3 5 = 0 then .ok (.led (field98 w) (field w 0 3))
    else .error (.reservedBits "LED")
  | op => .error (.reservedOp op)

/-- The word of a well-formed command: the formats C, P, A and L written field by field, the most
significant first (R72 to R75). -/
def encode : Instr → Word
  | .cfgp => 0b001#3 ++ 0#13
  | .setp pct => 0b010#3 ++ 0#6 ++ BitVec.ofNat 7 pct
  | .seta ch pct => 0b011#3 ++ 0#3 ++ BitVec.ofNat 2 ch ++ 0#1 ++ BitVec.ofNat 7 pct
  | .led ind col => 0b100#3 ++ 0#3 ++ BitVec.ofNat 2 ind ++ 0#5 ++ BitVec.ofNat 3 col

/-- The two bytes of a word in the order they travel (R52). -/
def splitWord (order : ByteOrder) (w : Word) : Byte × Byte :=
  match order with
  | .little => (w.extractLsb' 0 8, w.extractLsb' 8 8)
  | .big => (w.extractLsb' 8 8, w.extractLsb' 0 8)

/-- The word of two bytes that arrived in this order (R52). -/
def joinBytes (order : ByteOrder) (b0 b1 : Byte) : Word :=
  match order with
  | .little => b1 ++ b0
  | .big => b0 ++ b1

/-- Decode the first command of a byte stream, with the bytes after it (R52). -/
def decodeBytes (order : ByteOrder) : List Byte → Except DecodeError (Instr × List Byte)
  | b0 :: b1 :: rest =>
    match decode (joinBytes order b0 b1) with
    | .ok i => .ok (i, rest)
    | .error e => .error e
  | _ => .error .halfWord

/-- The bytes of a word in the order they travel. -/
def wordBytes (order : ByteOrder) (w : Word) : List Byte :=
  [(splitWord order w).1, (splitWord order w).2]

/-- What the decoder reads from an instruction whose low `nbits` bits are those of `w` and whose other bits
are 0; none for a pattern longer than the one length of 16 bits (R70). -/
def decodeTableWord (nbits w : Nat) : Option Instr :=
  if w % 2 ^ nbits < 65536 then
    match decodeBytes Config.params.cmdByteOrder (wordBytes Config.params.cmdByteOrder (BitVec.ofNat 16 (w % 2 ^ nbits))) with
    | .ok (i, _) => some i
    | .error _ => none
  else none

end Sys2Proof
end

