-- ==== Sys2Proof/Machine/State.lean ====
section
/-! DEFINITION. The state of the block (10_state.md R20 to R36), what waits at its inputs, and the state
after reset (R39, R170). -/

namespace Sys2Proof.Machine

/-- A state element that may be `UNSPEC` (R21): the value it holds and the mark. While `unspec` is set no rule
reads `held`: a read is a draw (log 1). -/
structure Elem (w : Nat) where
  held : BitVec w
  unspec : Bool
deriving DecidableEq, Repr

/-- An element whose value a rule has written. -/
def Elem.fixed {w : Nat} (v : BitVec w) : Elem w := { held := v, unspec := false }

/-- An element that is `UNSPEC`, as after reset. The value it holds is the model's own (log 1). -/
def Elem.unspecified {w : Nat} : Elem w := { held := 0, unspec := true }

/-- The spec's fault codes (60_exceptions.md R141). The set is closed. -/
inductive FaultCode where
  | illegal | range | badColor | notConfigured | reconfigure
deriving DecidableEq, Repr

/-- What may arrive from outside (20_memory.md R50, R52; 70_reset_and_hazards.md R170; log 8). -/
inductive PortEvent where
  /-- The host presents a whole command word (R50). -/
  | word (w : Word)
  /-- One byte arrives on a byte-wide transport (R52). -/
  | byte (b : Byte)
  /-- The reset input is asserted; a word being presented then is discarded (R170). -/
  | reset (presented : Option Word)
deriving DecidableEq, Repr

/-- Why a step stops with a fault: never. A fault of the spec sets a sticky bit and the block takes later
commands as usual (R140), traps do not exist (R148), and every step has an enabled agent (R7, R114), so there is
no constructor (log 16; safe: nothing stops that the spec lets go on). -/
inductive Fault where
deriving DecidableEq, Repr

/-- Why a step has no meaning. -/
inductive Refusal where
  /-- Raised by an arm of `exec` whose instruction has no meaning yet; no arm does so. Safe: the model stops
  where the hardware goes on. -/
  | notModelled (mnemonic : String)
deriving DecidableEq, Repr

/-- What the machine steps on: the block's state (the elements of R20), then the byte transport, the inputs, the
model's own bookkeeping, and the parameters the machine is given (log 24). -/
structure State where
  /-- `TCFG`: bit 0 RUN, bit 1 OE, bit 2 MODE, bit 3 hardwired 0 (R25). -/
  tcfg : BitVec 4
  /-- `TOP`, the last counter value of a carrier cycle (R26). -/
  top : Elem 16
  /-- `CNT`, the carrier counter (R29). -/
  cnt : BitVec 16
  /-- `CMP`, the compare value the host wrote (R27). -/
  cmp : Elem 16
  /-- `CMP_ACT`, the compare value in use this carrier cycle (R28). -/
  cmpAct : Elem 16
  /-- `AUX_DUTY[0..3]`, the native duties the host wrote (R30). -/
  auxDuty : Vector (Elem 8) 4
  /-- `AUX_ACT[0..3]`, the native duties in use this aux cycle (R31). -/
  auxAct : Vector (Elem 8) 4
  /-- `AUX_EN`, one output enable per channel (R32). -/
  auxEn : BitVec 4
  /-- `AUX_PHASE`, the shared aux phase counter (R33). -/
  auxPhase : Elem 8
  /-- `LED_LINE[0..3]`: bit 2 red, bit 1 green, bit 0 blue (R34). -/
  ledLine : Vector (Elem 3) 4
  /-- `LED_EN`, one output enable per indicator (R35). -/
  ledEn : BitVec 4
  /-- `FAULT`, the sticky fault bits (R36). -/
  fault : BitVec 5
  /-- The first byte of a word whose second byte has not arrived (R52, R53; log 9). -/
  half : Option Byte
  /-- What waits at the command port and the reset input, oldest first (R24, R50; log 8). -/
  inbox : List PortEvent
  /-- The host's index into its command sequence: the position in the run (R24; log 10). -/
  hostIndex : Nat
  /-- Which agents take the coming steps, first the next one (R7, R57; log 7). -/
  turns : List Agent
  /-- Counts steps, so that each step draws free values of its own (R21; log 2). -/
  draws : Nat
  /-- The parameters of R5: an argument of every step that no step writes, and no state of the block (R42; log 24). -/
  params : Params
deriving DecidableEq, Repr

/-- The machine right after reset, nothing having arrived at its inputs (R39, R170, R171). -/
def State.reset : State where
  tcfg := 0b0000
  top := .unspecified
  cnt := 0
  cmp := .unspecified
  cmpAct := .unspecified
  auxDuty := #v[.unspecified, .unspecified, .unspecified, .unspecified]
  auxAct := #v[.unspecified, .unspecified, .unspecified, .unspecified]
  auxEn := 0b0000
  auxPhase := .unspecified
  ledLine := #v[.unspecified, .unspecified, .unspecified, .unspecified]
  ledEn := 0b0000
  fault := 0b00000
  half := none
  inbox := []
  hostIndex := 0
  turns := []
  draws := 0
  params := Config.params

end Sys2Proof.Machine
end

