-- ==== Sys2Proof/Machine/Flags.lean ====
section
/-! DEFINITION. The status bits of the block: the fields of `TCFG` (10_state.md R25), the output enables
(R32, R35) and the sticky fault bits (R36). -/

namespace Sys2Proof.Machine

/-- The code of a fault (60_exceptions.md R141). -/
def FaultCode.code : FaultCode → Nat
  | .illegal => 1
  | .range => 2
  | .badColor => 3
  | .notConfigured => 4
  | .reconfigure => 5

/-- The bit of `FAULT` for a fault: bit `code - 1` (R36, R140). -/
def FaultCode.bit (c : FaultCode) : Nat := c.code - 1

/-- `v` with bit `i` set. -/
def setBit {n : Nat} (v : BitVec n) (i : Nat) : BitVec n := v ||| BitVec.twoPow n i

/-- `TCFG.RUN` (R25). -/
def State.run (s : State) : Bool := s.tcfg.getLsbD 0

/-- `TCFG.OE` (R25). -/
def State.oe (s : State) : Bool := s.tcfg.getLsbD 1

/-- `TCFG.MODE` (R25). -/
def State.mode (s : State) : Bool := s.tcfg.getLsbD 2

/-- `AUX_EN[ch]` (R32). -/
def State.auxEnabled (s : State) (ch : Fin 4) : Bool := s.auxEn.getLsbD ch

/-- `LED_EN[i]` (R35). -/
def State.ledEnabled (s : State) (i : Fin 4) : Bool := s.ledEn.getLsbD i

/-- The fault bit of `c` (R36). -/
def State.faulted (s : State) (c : FaultCode) : Bool := s.fault.getLsbD c.bit

end Sys2Proof.Machine
end

