-- ==== Sys2Proof/Machine/Rounding.lean ====
section
/-! DEFINITION. The roundings of 00_scope.md R10, 40_primary_pwm.md R93 and 41_aux_pwm.md R111, in exact
natural-number arithmetic. -/

namespace Sys2Proof.Machine

/-- `round_half_up` of `n / 100` (R10, R93). -/
def hundredthsHalfUp (n : Nat) : Nat := (n + 50) / 100

/-- `round_half_even` of `n / 100` (R10). -/
def hundredthsHalfEven (n : Nat) : Nat :=
  if 50 < n % 100 ∨ (n % 100 = 50 ∧ n / 100 % 2 = 1) then n / 100 + 1 else n / 100

/-- `trunc` of `n / 100` (R10). -/
def hundredthsTrunc (n : Nat) : Nat := n / 100

/-- A binary floating-point value is held as this many times its value; every value the two formulas meet is
a whole multiple of `1 / ieeeScale` (log 13). -/
def ieeeScale : Nat := 2 ^ 128

/-- The value nearest to `num / den` among those with a significand of `prec` bits, ties to the even
significand: IEEE 754 round to nearest (R93, R111; log 13). -/
def ieeeRound (prec num den : Nat) : Nat :=
  let q := num * ieeeScale / den
  let ulp := 2 ^ (Nat.log2 q + 1 - prec)
  if ulp < 2 * (q % ulp) ∨ (ulp = 2 * (q % ulp) ∧ (num * ieeeScale % den ≠ 0 ∨ q / ulp % 2 = 1)) then
    (q / ulp + 1) * ulp
  else q / ulp * ulp

/-- The integer nearest to a held floating-point value, halves away from zero (R93, R111). -/
def ieeeNearestInt (v : Nat) : Nat := (v + ieeeScale / 2) / ieeeScale

/-- `x / 100.0` in a format of `prec` significand bits, then rounded half away from zero (R93). -/
def ieeeHundredth (prec x : Nat) : Nat := ieeeNearestInt (ieeeRound prec x 100)

/-- `p * c`, where `c` is the nearest value to 2.55 in a format of `prec` significand bits, then rounded half
away from zero (R111). -/
def ieeeTimes255 (prec p : Nat) : Nat :=
  ieeeNearestInt (ieeeRound prec (p * ieeeRound prec 255 100) ieeeScale)

/-- `round_P` of `n / 100`, selected by `PRI_ROUND` (R93). -/
def roundPrimary (mode : PriRound) (n : Nat) : Nat :=
  match mode with
  | .halfUp => hundredthsHalfUp n
  | .halfEven => hundredthsHalfEven n
  | .binary64 => ieeeHundredth 53 n
  | .trunc => hundredthsTrunc n

/-- `round_A` of `p * 2.55`, selected by `AUX_ROUND` (R111). -/
def roundAux (mode : AuxRound) (p : Nat) : Nat :=
  match mode with
  | .halfUp => hundredthsHalfUp (255 * p)
  | .halfEven => hundredthsHalfEven (255 * p)
  | .binary64 => ieeeTimes255 53 p
  | .binary32 => ieeeTimes255 24 p
  | .trunc => hundredthsTrunc (255 * p)

end Sys2Proof.Machine
end

