-- ==== Sys2Proof/Machine/Operands.lean ====
section
/-! DEFINITION. What the operands of the commands stand for: the compare value, the native duty, the colour
and its line pattern; and how an element that may be `UNSPEC` is read (10_state.md R21). -/

namespace Sys2Proof.Machine

/-- `cmp_value(p)` for a cycle of `periodClocks` timer clocks, for `p` in 0..100 (R93). -/
def cmpValue (mode : PriRound) (periodClocks p : Nat) : Nat :=
  roundPrimary mode (periodClocks * (100 - p))

/-- `aux_value(p)`, for `p` in 0..100 (R111). -/
def auxValue (mode : AuxRound) (p : Nat) : Nat := roundAux mode p

/-- The colour of a code; none for the invalid codes 5..7 (R76). -/
def colorOfCode : Nat → Option Color
  | 0 => some .off
  | 1 => some .red
  | 2 => some .green
  | 3 => some .blue
  | 4 => some .white
  | _ => none

/-- The pattern of a colour, (R,G,B) from bit 2 down (R34, R126). -/
def pattern : Color → BitVec 3
  | .off => 0b000
  | .red => 0b100
  | .green => 0b010
  | .blue => 0b001
  | .white => 0b111

/-- A read of an element: its value, or the draw given for this place while the element is `UNSPEC` (R21). -/
def Elem.read {w : Nat} (e : Elem w) (draw : BitVec w) : BitVec w :=
  if e.unspec then draw else e.held

end Sys2Proof.Machine
end

