-- ==== Sys2Proof/Machine/Ops.lean ====
section
/-! DEFINITION. The named operations over the state: raising a fault (60_exceptions.md R140), writing each
element, and the reset input (70_reset_and_hazards.md R170). The block has no memory and no register file
(10_state.md R22, 20_memory.md R51). -/

namespace Sys2Proof.Machine

/-- `raise Fault(code)`: set the sticky bit of the code and change nothing else (R9, R140, R142). There is no
trap to enter and none to return from (R148, R149). -/
def State.raise (s : State) (c : FaultCode) : State := { s with fault := setBit s.fault c.bit }

/-- Write `TCFG`; bit 3 is hardwired 0 (R25). -/
def State.writeTcfg (s : State) (v : BitVec 4) : State := { s with tcfg := v &&& 0b0111 }

/-- Write `TOP` (R26). -/
def State.writeTop (s : State) (v : BitVec 16) : State := { s with top := .fixed v }

/-- Write `CNT` (R29). -/
def State.writeCnt (s : State) (v : BitVec 16) : State := { s with cnt := v }

/-- Write `CMP` (R27). -/
def State.writeCmp (s : State) (v : BitVec 16) : State := { s with cmp := .fixed v }

/-- `CMP_ACT <- CMP`: `UNSPEC` if `CMP` is `UNSPEC` (R28, R90). -/
def State.loadCmpAct (s : State) : State := { s with cmpAct := s.cmp }

/-- Write `AUX_DUTY[ch]` (R30). -/
def State.writeAuxDuty (s : State) (ch : Fin 4) (d : BitVec 8) : State :=
  { s with auxDuty := s.auxDuty.set ch (.fixed d) }

/-- `AUX_ACT[ch] <- d` and `AUX_EN[ch] <- 1` (R31, R32, R110). -/
def State.startAux (s : State) (ch : Fin 4) (d : BitVec 8) : State :=
  { s with auxAct := s.auxAct.set ch (.fixed d), auxEn := setBit s.auxEn ch }

/-- `AUX_ACT[ch] <- AUX_DUTY[ch]` for every channel, `UNSPEC` where the duty is (R114). -/
def State.loadAuxAct (s : State) : State := { s with auxAct := s.auxDuty }

/-- Write `AUX_PHASE` (R33). -/
def State.writeAuxPhase (s : State) (v : BitVec 8) : State := { s with auxPhase := .fixed v }

/-- Write all three lines of indicator `i` and enable it (R34, R35, R54). -/
def State.writeLed (s : State) (i : Fin 4) (v : BitVec 3) : State :=
  { s with ledLine := s.ledLine.set i (.fixed v), ledEn := setBit s.ledEn i }

/-- The reset input: every element takes its value of R39 and the framing of a byte transport restarts; what
arrives later, the run's position, the parameters and the model's own bookkeeping stay (R170; log 8, 10, 24). -/
def State.resetBlock (s : State) : State :=
  { State.reset with inbox := s.inbox, hostIndex := s.hostIndex, turns := s.turns, draws := s.draws,
                     params := s.params }

/-- More events come from outside, after those that wait already: the host goes on with its sequence, which need
not end (R24, R57; log 8). They may come before any step. -/
def State.arrive (s : State) (events : List PortEvent) : State := { s with inbox := s.inbox ++ events }

end Sys2Proof.Machine
end

