-- ==== Sys2Proof/Machine/AuxPwm.lean ====
section
/-! DEFINITION. The auxiliary PWM channels (41_aux_pwm.md): SETA and the `AUXCLK` step. -/

namespace Sys2Proof.Machine

/-- The effect of SETA with native duty `d` (R110): the first write to a channel also starts it. -/
def State.setAux (s : State) (ch : Fin 4) (d : BitVec 8) : State :=
  if s.auxEnabled ch then s.writeAuxDuty ch d else (s.writeAuxDuty ch d).startAux ch d

/-- SETA (R110, R145). -/
def execSeta (ch : Fin 4) (pct : Nat) (s : State) : Host.Outcome State Fault Refusal :=
  if !s.run then .next (s.raise .notConfigured)
  else if 100 < pct then .next (s.raise .range)
  else .next (s.setAux ch (BitVec.ofNat 8 (auxValue s.params.auxRound pct)))

/-- `AUX_PHASE` as one `AUXCLK` step reads it: once, a draw within 0..254 while it is `UNSPEC` (R33, R114;
log 3). -/
def State.phaseNow (s : State) : BitVec 8 :=
  s.auxPhase.read (BitVec.ofNat 8 (Config.freePhase s.draws).val)

/-- One step of `AUXCLK`, always enabled (R114). -/
def auxclkStep (s : State) : State :=
  if s.phaseNow = 254 then (s.writeAuxPhase 0).loadAuxAct
  else s.writeAuxPhase (s.phaseNow + 1)

end Sys2Proof.Machine
end

