-- ==== Sys2Proof/Machine/LedDriver.lean ====
section
/-! DEFINITION. The LED colour decoder (42_led_driver.md): LED. -/

namespace Sys2Proof.Machine

/-- LED (R125, R145). -/
def execLed (ind : Fin 4) (col : Nat) (s : State) : Host.Outcome State Fault Refusal :=
  match colorOfCode col with
  | none => .next (s.raise .badColor)
  | some c => .next (s.writeLed ind (pattern c))

end Sys2Proof.Machine
end

