-- ==== Sys2Proof/Machine/PrimaryPwm.lean ====
section
/-! DEFINITION. The primary PWM channel (40_primary_pwm.md): CFGP, SETP and the `CARRIER` step. -/

namespace Sys2Proof.Machine

/-- The effect of CFGP on a stopped timer, for a cycle of `periodClocks` timer clocks (R90). -/
def State.startTimer (s : State) (periodClocks : Nat) : State :=
  (((s.writeTop (BitVec.ofNat 16 (periodClocks - 1))).writeCnt 0).loadCmpAct).writeTcfg 0b0111

/-- CFGP (R90, R91). -/
def execCfgp (s : State) : Host.Outcome State Fault Refusal :=
  if s.run then .next (s.raise .reconfigure) else .next (s.startTimer s.params.period)

/-- SETP (R92, R145). -/
def execSetp (pct : Nat) (s : State) : Host.Outcome State Fault Refusal :=
  if !s.run then .next (s.raise .notConfigured)
  else if 100 < pct then .next (s.raise .range)
  else .next (s.writeCmp (BitVec.ofNat 16 (cmpValue s.params.priRound s.params.period pct)))

/-- One step of `CARRIER`, enabled while `TCFG.RUN = 1` (R96). -/
def carrierStep (s : State) : State :=
  if s.cnt = s.top.read (Config.freeTop s.draws) then (s.writeCnt 0).loadCmpAct
  else s.writeCnt (s.cnt + 1)

end Sys2Proof.Machine
end

