-- ==== Sys2Proof/Machine/Dispatch.lean ====
section
/-! DEFINITION. The meaning of each command, one arm per row of the opcode table. -/

namespace Sys2Proof.Machine

def exec (i : Instr) (s : State) : Host.Outcome State Fault Refusal :=
  match i with
  | .cfgp => Sys2Proof.Machine.execCfgp s
  | .setp pct => Sys2Proof.Machine.execSetp pct s
  | .seta ch pct => Sys2Proof.Machine.execSeta ch pct s
  | .led ind col => Sys2Proof.Machine.execLed ind col s

end Sys2Proof.Machine
end

