-- ==== Sys2Proof/Machine/Port.lean ====
section
/-! DEFINITION. The command port (20_memory.md R50 to R54) and the agents' steps (00_scope.md R7). -/

namespace Sys2Proof.Machine

/-- The host issues one command word: it is decoded and carried out in this one step, and a word that is not
selected raises ILLEGAL (R50, R78, R80). The host's index advances by one (R24). -/
def issueWord (w : Word) (s : State) : Host.Outcome State Fault Refusal :=
  match decode w with
  | .ok i => exec i { s with hostIndex := s.hostIndex + 1 }
  | .error _ => .next (State.raise { s with hostIndex := s.hostIndex + 1 } .illegal)

/-- One byte arrives: the first of a pair is kept and nothing executes; the second completes a word (R52, R53;
log 9). -/
def takeByte (b : Byte) (s : State) : Host.Outcome State Fault Refusal :=
  match s.half with
  | none => .next { s with half := some b }
  | some b0 => issueWord (joinBytes s.params.cmdByteOrder b0 b) { s with half := none }

/-- What one event from outside does (R50, R52, R170). -/
def takeEvent (e : PortEvent) (s : State) : Host.Outcome State Fault Refusal :=
  match e with
  | .word w => issueWord w s
  | .byte b => takeByte b s
  | .reset _ => .next s.resetBlock

/-- The turn of `HOST`: the oldest event waiting is taken. With nothing waiting `HOST` is not enabled, and its
turn would change nothing (log 8). -/
def hostStep (s : State) : Host.Outcome State Fault Refusal :=
  match s.inbox with
  | [] => .next s
  | e :: rest => takeEvent e { s with inbox := rest }

/-- The step of one agent (R7). -/
def agentStep (a : Agent) (s : State) : Host.Outcome State Fault Refusal :=
  match a with
  | .host => hostStep s
  | .carrier => .next (carrierStep s)
  | .auxclk => .next (auxclkStep s)

end Sys2Proof.Machine
end

