-- ==== Sys2Proof/Machine/Schedule.lean ====
section
/-! DEFINITION. Who takes the next step (00_scope.md R7, 20_memory.md R57): any enabled agent may. -/

namespace Sys2Proof.Machine

/-- Whether an agent is enabled: `HOST` when something waits at its port, `CARRIER` exactly when `TCFG.RUN = 1`
(R96), `AUXCLK` always (R114). -/
def State.enabled (s : State) : Agent → Bool
  | .host => !s.inbox.isEmpty
  | .carrier => s.run
  | .auxclk => true

/-- The first enabled agent of a list of turns, with the turns after it; turns of agents that are not enabled
pass (log 7). -/
def pickTurn (enabled : Agent → Bool) : List Agent → Option (Agent × List Agent)
  | [] => none
  | a :: rest => if enabled a then some (a, rest) else pickTurn enabled rest

/-- The freely chosen agent, or `AUXCLK` if that one is not enabled (R7; log 7). -/
def State.freeTurn (s : State) : Agent :=
  if s.enabled (Config.freeAgent s.draws) then Config.freeAgent s.draws else .auxclk

/-- The agent that takes the next step, and the turns left after it. -/
def State.nextTurn (s : State) : Agent × List Agent :=
  (pickTurn s.enabled s.turns).getD (s.freeTurn, [])

/-- The state in which the chosen agent acts: its turn is used and the free values of this step are fresh
(log 2). -/
def State.begin (s : State) (rest : List Agent) : State :=
  { s with turns := rest, draws := s.draws + 1 }

end Sys2Proof.Machine
end

