-- ==== Sys2Proof/Machine/Step.lean ====
section
/-! DEFINITION. One step of the machine: a step of exactly one agent (00_scope.md R7). -/

namespace Sys2Proof.Machine

/-- One step (R7). -/
def step (s : State) : Host.Outcome State Fault Refusal :=
  agentStep s.nextTurn.1 (s.begin s.nextTurn.2)

/-- `s` with the host presenting this word next and `HOST` taking the next step, so that the next step carries
it out (R24, R50; log 11). -/
def State.withFetchWord (s : State) (nbits w : Nat) : State :=
  { s with inbox := .word (BitVec.ofNat 16 (w % 2 ^ nbits)) :: s.inbox, turns := .host :: s.turns }

end Sys2Proof.Machine
end

