-- ==== Sys2Proof/Machine/Assembler.lean ====
section
/-! DEFINITION. The written forms of the commands (30_encoding.md R83, R84): pseudo-instructions and one-line
assembler syntax, over lists of characters (log 21). -/

namespace Sys2Proof.Machine

/-- The words of the four SETA and the one SETP of `FANS` (R84); none for a percent over 100. -/
def expandFans (f1 f2 f3 f4 big : Nat) : Option (List Instr) :=
  if f1 ≤ 100 ∧ f2 ≤ 100 ∧ f3 ≤ 100 ∧ f4 ≤ 100 ∧ big ≤ 100 then
    some [.seta 0 f1, .seta 1 f2, .seta 2 f3, .seta 3 f4, .setp big]
  else none

/-- The four LED of `LEDS` (R84). -/
def expandLeds (c1 c2 c3 c4 : Color) : List Instr :=
  [.led 0 c1.code, .led 1 c2.code, .led 2 c3.code, .led 3 c4.code]

/-- The commands a pseudo-instruction stands for, in order; none where it is refused (R84). -/
def expandPseudo : Pseudo → Option (List Instr)
  | .fans f1 f2 f3 f4 big => expandFans f1 f2 f3 f4 big
  | .leds c1 c2 c3 c4 => some (expandLeds c1 c2 c3 c4)
  | .all f1 f2 f3 f4 big c1 c2 c3 c4 =>
    (expandFans f1 f2 f3 f4 big).map (fun fans => fans ++ expandLeds c1 c2 c3 c4)
  | .boot =>
    some ([.cfgp, .setp 0, .seta 0 0, .seta 1 0, .seta 2 0, .seta 3 0] ++ expandLeds .off .off .off .off)

/-- Why the assembler refuses a line. -/
inductive AsmError where
  /-- The line names no command and no pseudo-instruction, or its operands do not have the form of R83, R84. -/
  | badForm
  /-- An operand does not fit its field (R83). -/
  | doesNotFit
  /-- A pseudo-instruction's percent is over 100 or its colour is none of the five (R84). -/
  | outOfRange
deriving DecidableEq, Repr

/-- A lexical piece of a line. -/
inductive AsmToken where
  | word (cs : List Char)
  | comma
deriving DecidableEq, Repr

/-- The word gathered so far, if any, as a token. -/
def flushWord (cur : List Char) : List AsmToken :=
  if cur.isEmpty then [] else [.word cur.reverse]

/-- The tokens of a line: letters are read as capitals, white space separates, a semicolon begins a comment
(R83). -/
def tokens : List Char → List Char → List AsmToken
  | cur, [] => flushWord cur
  | cur, c :: cs =>
    if c = ';' then flushWord cur
    else if c = ',' then flushWord cur ++ .comma :: tokens [] cs
    else if c = ' ' ∨ c = '\t' then flushWord cur ++ tokens [] cs
    else tokens (c.toUpper :: cur) cs

/-- The value of a capital hexadecimal digit. -/
def digitValue (c : Char) : Option Nat :=
  if '0' ≤ c ∧ c ≤ '9' then some (c.toNat - 48)
  else if 'A' ≤ c ∧ c ≤ 'F' then some (c.toNat - 55)
  else none

/-- The number these digits write in a base, given the value of the digits before them. -/
def digitsValue (base : Nat) : Nat → List Char → Option Nat
  | acc, [] => some acc
  | acc, c :: cs =>
    match digitValue c with
    | some d => if d < base then digitsValue base (acc * base + d) cs else none
    | none => none

/-- A decimal or `0x` hexadecimal number (R83). -/
def parseNumber : List Char → Option Nat
  | [] => none
  | ['0', 'X'] => none
  | '0' :: 'X' :: ds => digitsValue 16 0 ds
  | ds => digitsValue 10 0 ds

/-- The code of a colour operand: one of the names, one of the host's tokens, or a number (R76, R83). -/
def parseColorCode (cs : List Char) : Option Nat :=
  if cs = ['O', 'F', 'F'] then some 0
  else if cs = ['R', 'E', 'D'] ∨ cs = ['R'] then some 1
  else if cs = ['G', 'R', 'E', 'E', 'N'] ∨ cs = ['G'] then some 2
  else if cs = ['B', 'L', 'U', 'E'] ∨ cs = ['B'] then some 3
  else if cs = ['W', 'H', 'I', 'T', 'E'] ∨ cs = ['W'] then some 4
  else parseNumber cs

/-- The operands of a line: words with one comma between them. -/
def operands : List AsmToken → Option (List (List Char))
  | [] => some []
  | [.word w] => some [w]
  | .word w :: .comma :: .word v :: rest => (operands (.word v :: rest)).map (w :: ·)
  | _ => none

/-- The numbers these operands write. -/
def parseNumbers : List (List Char) → Except AsmError (List Nat)
  | [] => .ok []
  | cs :: rest =>
    match parseNumber cs with
    | none => .error .badForm
    | some n =>
      match parseNumbers rest with
      | .ok ns => .ok (n :: ns)
      | .error e => .error e

/-- The colours these operands of a pseudo-instruction write; any other is refused (R84). -/
def parseColors : List (List Char) → Except AsmError (List Color)
  | [] => .ok []
  | cs :: rest =>
    match parseColorCode cs with
    | none => .error .badForm
    | some n =>
      match colorOfCode n, parseColors rest with
      | some c, .ok colors => .ok (c :: colors)
      | none, _ => .error .outOfRange
      | _, .error e => .error e

/-- A channel or indicator number, refused where it does not fit its two bits (R83). -/
def parseIndex (cs : List Char) : Except AsmError (Fin 4) :=
  match parseNumber cs with
  | none => .error .badForm
  | some n => if h : n < 4 then .ok ⟨n, h⟩ else .error .doesNotFit

/-- A command, refused where an operand does not fit its field (R83). -/
def checkFits (i : Instr) : Except AsmError (List Instr) :=
  if i.wf then .ok [i] else .error .doesNotFit

/-- The commands of a pseudo-instruction, refused where R84 refuses it. -/
def checkPseudo (p : Pseudo) : Except AsmError (List Instr) :=
  match expandPseudo p with
  | some is => .ok is
  | none => .error .outOfRange

/-- The percent operand of SETP and SETA. -/
def assemblePct (cs : List Char) (mk : Nat → Instr) : Except AsmError (List Instr) :=
  match parseNumber cs with
  | none => .error .badForm
  | some n => checkFits (mk n)

/-- SETA with its two operands (R83). -/
def assembleSeta (ch pct : List Char) : Except AsmError (List Instr) :=
  match parseIndex ch with
  | .error e => .error e
  | .ok c => assemblePct pct (.seta c)

/-- LED with its two operands (R83). -/
def assembleLed (ind color : List Char) : Except AsmError (List Instr) :=
  match parseIndex ind, parseColorCode color with
  | .error e, _ => .error e
  | .ok _, none => .error .badForm
  | .ok i, some n => checkFits (.led i n)

/-- FANS with its operands (R84). -/
def assembleFans (ops : List (List Char)) : Except AsmError (List Instr) :=
  match parseNumbers ops with
  | .ok [f1, f2, f3, f4, big] => checkPseudo (.fans f1 f2 f3 f4 big)
  | .ok _ => .error .badForm
  | .error e => .error e

/-- LEDS with its operands (R84). -/
def assembleLeds (ops : List (List Char)) : Except AsmError (List Instr) :=
  match parseColors ops with
  | .ok [c1, c2, c3, c4] => checkPseudo (.leds c1 c2 c3 c4)
  | .ok _ => .error .badForm
  | .error e => .error e

/-- ALL with its operands (R84). -/
def assembleAll (ops : List (List Char)) : Except AsmError (List Instr) :=
  match parseNumbers (ops.take 5), parseColors (ops.drop 5) with
  | .ok [f1, f2, f3, f4, big], .ok [c1, c2, c3, c4] => checkPseudo (.all f1 f2 f3 f4 big c1 c2 c3 c4)
  | .error e, _ => .error e
  | .ok _, .error e => .error e
  | .ok _, .ok _ => .error .badForm

/-- One line of a command and its operands (R83, R84). -/
def assembleWords (name : List Char) (ops : List (List Char)) : Except AsmError (List Instr) :=
  if name = ['F', 'A', 'N', 'S'] then assembleFans ops
  else if name = ['L', 'E', 'D', 'S'] then assembleLeds ops
  else if name = ['A', 'L', 'L'] then assembleAll ops
  else
    match ops with
    | [] =>
      if name = ['C', 'F', 'G', 'P'] then checkFits .cfgp
      else if name = ['B', 'O', 'O', 'T'] then checkPseudo .boot
      else .error .badForm
    | [a] => if name = ['S', 'E', 'T', 'P'] then assemblePct a .setp else .error .badForm
    | [a, b] =>
      if name = ['S', 'E', 'T', 'A'] then assembleSeta a b
      else if name = ['L', 'E', 'D'] then assembleLed a b
      else .error .badForm
    | _ => .error .badForm

/-- The commands of one line; a line with nothing but a comment has none (R83). -/
def assembleLine (cs : List Char) : Except AsmError (List Instr) :=
  match tokens [] cs with
  | [] => .ok []
  | .word name :: rest =>
    match operands rest with
    | some ops => assembleWords name ops
    | none => .error .badForm
  | .comma :: _ => .error .badForm

end Sys2Proof.Machine
end

