-- ==== Sys2Proof/Machine/Outputs.lean ====
section
/-! DEFINITION. The output pins, functions of the state (10_state.md R37): `PRI_OUT` (40_primary_pwm.md R98),
`AUX_OUT` (41_aux_pwm.md R116), `LED_OUT` (42_led_driver.md R128), and what the active-low stage outside the block
makes of the primary pin (R100). -/

namespace Sys2Proof.Machine

/-- The three values of a pin: driven low, driven high, not driven (00_scope.md R11). -/
inductive Pin where
  | low | high | z
deriving DecidableEq, Repr

/-- A driven pin. -/
def Pin.ofBool (b : Bool) : Pin := if b then .high else .low

/-- `PRI_OUT`: `CMP_ACT` is read once, a draw while it is `UNSPEC` (R98, R174; log 2). -/
def priOut (s : State) : Pin :=
  if !s.oe then .z else Pin.ofBool (s.cnt.ult (s.cmpAct.read (Config.freeCmpAct s.draws)))

/-- `AUX_OUT[ch]` (R116). -/
def auxOut (s : State) (ch : Fin 4) : Pin :=
  if !s.auxEnabled ch then .z
  else
    Pin.ofBool ((s.auxPhase.read (BitVec.ofNat 8 (Config.freePhaseAtPin s.draws ch).val)).ult
      (s.auxAct[ch].read (Config.freeAuxAct s.draws ch)))

/-- The bit of `LED_LINE` that drives a line (R34, R128). -/
def LedColour.bit : LedColour → Nat
  | .red => 2
  | .green => 1
  | .blue => 0

/-- `LED_OUT[i][c]` (R128). -/
def ledOut (s : State) (i : Fin 4) (c : LedColour) : Pin :=
  if !s.ledEnabled i then .z
  else Pin.ofBool ((s.ledLine[i].read (Config.freeLedLine s.draws i c)).getLsbD (LedColour.bit c))

/-- What the fan sees of a level of the primary pin: its inverse, and nothing the spec states while the pin is
not driven (R100; 93_implementation_defined.md U11). -/
def fanSees : Pin → Option Bool
  | .low => some true
  | .high => some false
  | .z => none

end Sys2Proof.Machine
end

