-- ==== Sys2Proof/Safety.lean ====
section
/-! DEFINITION. The terms claims use: a clean state (60_exceptions.md R143), the invariants of 10_state.md R40,
the host's duties (60_exceptions.md R160), and runs under the fairness of 00_scope.md R7. -/

namespace Sys2Proof.Safety

open Sys2Proof.Machine

/-- No command has faulted since reset: the premise every claim about a run takes (R36, R143). -/
def Clean (s : State) : Prop := s.fault = 0

/-- An element that is not `UNSPEC` and whose value satisfies `P`. -/
def FixedWith {w : Nat} (e : Elem w) (P : BitVec w → Prop) : Prop := e.unspec = false ∧ P e.held

/-- If the element is not `UNSPEC`, its value satisfies `P`. -/
def IfFixed {w : Nat} (e : Elem w) (P : BitVec w → Prop) : Prop := e.unspec = false → P e.held

/-- The five patterns of R126. -/
def FivePatterns (v : BitVec 3) : Prop :=
  v = 0b000 ∨ v = 0b100 ∨ v = 0b010 ∨ v = 0b001 ∨ v = 0b111

/-- The primary unit's invariants: R40 (a), (b), (c), (d), the bound of R40 (d) on `CMP_ACT`, which is only
ever loaded from `CMP`, and the corner case of R90 that `CMP` is `UNSPEC` while the timer is stopped. -/
structure PrimaryInv (s : State) : Prop where
  tcfgLegal : s.tcfg = 0b0000 ∨ s.tcfg = 0b0111
  stoppedCnt : s.run = false → s.cnt = 0
  stoppedCmp : s.run = false → s.cmp.unspec = true
  runningTop : s.run = true → FixedWith s.top (fun v => v.toNat = s.params.period - 1)
  runningCnt : s.run = true → s.cnt.toNat ≤ s.top.held.toNat
  cmpBound : IfFixed s.cmp (fun v => v.toNat ≤ s.params.period)
  cmpActBound : IfFixed s.cmpAct (fun v => v.toNat ≤ s.params.period)

/-- The auxiliary unit's invariants: R40 (e), an enabled channel's duties are written (R32, R110, R114), and a
channel is enabled only while the timer is configured (R110). -/
structure AuxInv (s : State) : Prop where
  phaseBound : IfFixed s.auxPhase (fun v => v.toNat ≤ 254)
  enabledFixed : ∀ ch : Fin 4, s.auxEnabled ch = true →
    s.auxDuty[ch].unspec = false ∧ s.auxAct[ch].unspec = false
  enabledRuns : ∀ ch : Fin 4, s.auxEnabled ch = true → s.run = true

/-- The LED decoder's invariant: R40 (f), R127. -/
def LedInv (s : State) : Prop :=
  ∀ i : Fin 4, s.ledEnabled i = true → FixedWith s.ledLine[i] FivePatterns

/-- The invariants of R40 together. -/
structure Inv (s : State) : Prop where
  primary : PrimaryInv s
  aux : AuxInv s
  led : LedInv s

/-- The word meets the host's duties of R160 in this state: a selected word, CFGP only on a stopped timer, a
duty command only on a configured one and with a percent in 0..100, a colour code that is one of the five. -/
def meetsDuty (s : State) (w : Word) : Bool :=
  match decode w with
  | .error _ => false
  | .ok .cfgp => !s.run
  | .ok (.setp pct) => s.run && decide (pct ≤ 100)
  | .ok (.seta _ pct) => s.run && decide (pct ≤ 100)
  | .ok (.led _ col) => decide (col ≤ 4)

/-- The word the next step issues, if it issues one: a whole word, or the byte that completes a pair (R50, R52). -/
def issuedWord (s : State) : Option Word :=
  if s.nextTurn.1 = .host then
    match s.inbox with
    | .word w :: _ => some w
    | .byte b :: _ => s.half.map (fun b0 => joinBytes s.params.cmdByteOrder b0 b)
    | _ => none
  else none

/-- The two commands write the same element of the block (R175). -/
def sameTarget : Instr → Instr → Bool
  | .setp _, .setp _ => true
  | .seta c _, .seta d _ => decide (c = d)
  | .led i _, .led j _ => decide (i = j)
  | _, _ => false

/-- How many of the 65536 words decode in this way (R82). -/
def countWords (p : Except DecodeError Instr → Bool) : Nat :=
  (List.range 65536).countP (fun n => p (decode (BitVec.ofNat 16 n)))

/-- The same element with nothing held under an `UNSPEC` mark. -/
def forgetElem {w : Nat} (e : Elem w) : Elem w := if e.unspec then .unspecified else e

/-- The same state with nothing held under an `UNSPEC` mark: what the spec says of the state (R21; log 1). -/
def forgetUnspec (s : State) : State :=
  { s with
    top := forgetElem s.top, cmp := forgetElem s.cmp, cmpAct := forgetElem s.cmpAct,
    auxDuty := s.auxDuty.map forgetElem, auxAct := s.auxAct.map forgetElem,
    auxPhase := forgetElem s.auxPhase, ledLine := s.ledLine.map forgetElem }

/-- A run in which `came n` arrives from outside before step `n` and `who n` is the agent that takes it: each step
is a step of exactly one enabled agent, whichever (R7, R57). The host's sequence may be infinite: words may come
before every step. That what has not come yet stands outside the state is the model's choice (log 7, 8). The
machine's own `step` makes the runs in which nothing more comes. -/
def IsRun (r : Nat → State) (came : Nat → List PortEvent) (who : Nat → Agent) : Prop :=
  ∀ n, ((r n).arrive (came n)).enabled (who n) = true ∧
    ∃ rest, agentStep (who n) (((r n).arrive (came n)).begin rest) = .next (r (n + 1))

/-- The fairness of R7: an agent that is enabled from some point on takes infinitely many steps. That `HOST` counts
as enabled while an event waits is the model's choice (log 8). -/
def Fair (r : Nat → State) (who : Nat → Agent) : Prop :=
  ∀ a, (∃ n0, ∀ n, n0 ≤ n → (r n).enabled a = true) → ∀ n, ∃ m, n ≤ m ∧ who m = a

end Sys2Proof.Safety
end

