-- ==== Sys2Proof/Certificates/Slice0/Obligations.lean ====
section
/-! DEFINITION. The statements for the provers. Each docstring names the rules of spec/ it formalises. -/

open Sys2Proof Sys2Proof.Machine Sys2Proof.Safety

/-! ## Encoding -/

/-- R72 to R79: the word of a well-formed command decodes to that command, for every operand its fields admit. -/
def Obligations.DecodeOfEncode : Prop :=
  ∀ i : Instr, i.wf = true → decode (encode i) = .ok i

/-- R70, R78, R79: a command that a word decodes to is well formed, and that word is its only encoding. -/
def Obligations.EncodeOfDecode : Prop :=
  ∀ (w : Word) (i : Instr), decode w = .ok i → i.wf = true ∧ encode i = w

/-- R79: `w & mask = match` selects exactly the row's command, with the operands of the row's fields. -/
def Obligations.OpcodeMapSelects : Prop :=
  ∀ w : Word,
    (w &&& 0xFFFF = 0x2000 ↔ decode w = .ok .cfgp) ∧
    (w &&& 0xFF80 = 0x4000 ↔ ∃ pct, decode w = .ok (.setp pct)) ∧
    (w &&& 0xFC80 = 0x6000 ↔ ∃ ch pct, decode w = .ok (.seta ch pct)) ∧
    (w &&& 0xFCF8 = 0x8000 ↔ ∃ ind col, decode w = .ok (.led ind col)) ∧
    (∀ pct, decode w = .ok (.setp pct) → pct = w.toNat % 128) ∧
    (∀ ch pct, decode w = .ok (.seta ch pct) → ch.val = w.toNat / 256 % 4 ∧ pct = w.toNat % 128) ∧
    (∀ ind col, decode w = .ok (.led ind col) → ind.val = w.toNat / 256 % 4 ∧ col = w.toNat % 8)

/-- R80: which words are illegal, and that issuing one sets the ILLEGAL bit of FAULT with no other effect on
the block (the host's index, R24, advances as for every word). -/
def Obligations.IllegalWordsFault : Prop :=
  (∀ w : Word, (∃ e, decode w = .error e) ↔
    (w.toNat / 8192 = 0 ∨ w.toNat / 8192 = 5 ∨ w.toNat / 8192 = 6 ∨ w.toNat / 8192 = 7) ∨
    (w.toNat / 8192 = 1 ∧ w.toNat % 8192 ≠ 0) ∨
    (w.toNat / 8192 = 2 ∧ w.toNat / 128 % 64 ≠ 0) ∨
    (w.toNat / 8192 = 3 ∧ (w.toNat / 1024 % 8 ≠ 0 ∨ w.toNat / 128 % 2 ≠ 0)) ∨
    (w.toNat / 8192 = 4 ∧ (w.toNat / 1024 % 8 ≠ 0 ∨ w.toNat / 8 % 32 ≠ 0))) ∧
  (∀ (w : Word) (e : DecodeError) (s : State), decode w = .error e →
    issueWord w s = .next { s with hostIndex := s.hostIndex + 1, fault := s.fault ||| 0b00001 }) ∧
  (∀ w : Word, w &&& 0xFFFF ≠ 0x2000 → w &&& 0xFF80 ≠ 0x4000 → w &&& 0xFC80 ≠ 0x6000 →
    w &&& 0xFCF8 ≠ 0x8000 → ∃ e, decode w = .error e) ∧
  (∃ e, decode 0x0000 = .error e) ∧ (∃ e, decode 0xFFFF = .error e)

/-- R82: how many words each command has, how many of them have operands in range, and how many are illegal. -/
def Obligations.EncodingCounts : Prop :=
  countWords (fun d => match d with | .ok .cfgp => true | _ => false) = 1 ∧
  countWords (fun d => match d with | .ok (.setp _) => true | _ => false) = 128 ∧
  countWords (fun d => match d with | .ok (.setp pct) => decide (pct ≤ 100) | _ => false) = 101 ∧
  countWords (fun d => match d with | .ok (.seta _ _) => true | _ => false) = 512 ∧
  countWords (fun d => match d with | .ok (.seta _ pct) => decide (pct ≤ 100) | _ => false) = 404 ∧
  countWords (fun d => match d with | .ok (.led _ _) => true | _ => false) = 32 ∧
  countWords (fun d => match d with | .ok (.led _ col) => decide (col ≤ 4) | _ => false) = 20 ∧
  countWords (fun d => match d with | .ok _ => true | _ => false) = 673 ∧
  countWords (fun d => match d with | .ok _ => false | _ => true) = 64863

/-- R85: the worked encodings, in both directions. -/
def Obligations.WorkedEncodings : Prop :=
  (encode .cfgp = 0x2000 ∧ encode (.setp 30) = 0x401E ∧ encode (.setp 0) = 0x4000 ∧
    encode (.setp 100) = 0x4064 ∧ encode (.seta 3 20) = 0x6314 ∧ encode (.seta 0 100) = 0x6064 ∧
    encode (.led 2 Color.blue.code) = 0x8203 ∧ encode (.led 3 Color.white.code) = 0x8304 ∧
    encode (.led 0 Color.off.code) = 0x8000) ∧
  (decode 0x2000 = .ok .cfgp ∧ decode 0x401E = .ok (.setp 30) ∧ decode 0x4000 = .ok (.setp 0) ∧
    decode 0x4064 = .ok (.setp 100) ∧ decode 0x6314 = .ok (.seta 3 20) ∧
    decode 0x6064 = .ok (.seta 0 100) ∧ decode 0x8203 = .ok (.led 2 3) ∧
    decode 0x8304 = .ok (.led 3 4) ∧ decode 0x8000 = .ok (.led 0 0))

/-- R52: LITTLE sends `w[7:0]` first and BIG sends `w[15:8]` first, and joining the two bytes of a word in the
same order gives the word back. -/
def Obligations.ByteOrderOfWords : Prop :=
  ∀ w : Word,
    ((splitWord .little w).1.toNat = w.toNat % 256 ∧ (splitWord .little w).2.toNat = w.toNat / 256) ∧
    ((splitWord .big w).1.toNat = w.toNat / 256 ∧ (splitWord .big w).2.toNat = w.toNat % 256) ∧
    (∀ order, joinBytes order (splitWord order w).1 (splitWord order w).2 = w)

/-- R84: each pseudo-instruction expands to the listed commands in the listed order, and is refused exactly where
a percent is over 100; every command of an expansion is well formed, has its percent in 0..100 and a colour code
that is one of the five. -/
def Obligations.PseudoExpansionsInRange : Prop :=
  (∀ f1 f2 f3 f4 big : Nat, f1 ≤ 100 → f2 ≤ 100 → f3 ≤ 100 → f4 ≤ 100 → big ≤ 100 →
    expandPseudo (.fans f1 f2 f3 f4 big)
      = some [.seta 0 f1, .seta 1 f2, .seta 2 f3, .seta 3 f4, .setp big] ∧
    (∀ c1 c2 c3 c4 : Color, expandPseudo (.all f1 f2 f3 f4 big c1 c2 c3 c4)
      = some [.seta 0 f1, .seta 1 f2, .seta 2 f3, .seta 3 f4, .setp big,
              .led 0 c1.code, .led 1 c2.code, .led 2 c3.code, .led 3 c4.code])) ∧
  (∀ c1 c2 c3 c4 : Color, expandPseudo (.leds c1 c2 c3 c4)
    = some [.led 0 c1.code, .led 1 c2.code, .led 2 c3.code, .led 3 c4.code]) ∧
  (expandPseudo .boot
    = some [.cfgp, .setp 0, .seta 0 0, .seta 1 0, .seta 2 0, .seta 3 0, .led 0 0, .led 1 0, .led 2 0, .led 3 0]) ∧
  (∀ p, expandPseudo p = none ↔
    match p with
    | .fans f1 f2 f3 f4 big => 100 < f1 ∨ 100 < f2 ∨ 100 < f3 ∨ 100 < f4 ∨ 100 < big
    | .all f1 f2 f3 f4 big _ _ _ _ => 100 < f1 ∨ 100 < f2 ∨ 100 < f3 ∨ 100 < f4 ∨ 100 < big
    | _ => False) ∧
  (∀ p is, expandPseudo p = some is → ∀ i ∈ is, i.wf = true ∧
    match i with
    | .cfgp => p = .boot
    | .setp pct => pct ≤ 100
    | .seta _ pct => pct ≤ 100
    | .led _ col => ∃ c : Color, col = c.code)

/-! ## The step -/

/-- R7, R24, R50, R78: when `HOST` has the turn and a word is the oldest event, step is exec of the command the
word decodes to, at the state with that event and that turn used, the host's index one higher and fresh free
values; an illegal word raises ILLEGAL there. -/
def Obligations.StepRunsDecodedWord : Prop :=
  ∀ (s : State) (w : Word) (rest : List PortEvent), s.nextTurn.1 = .host → s.inbox = .word w :: rest →
    (∀ i, decode w = .ok i →
      step s = exec i { s with inbox := rest, hostIndex := s.hostIndex + 1, turns := s.nextTurn.2,
                               draws := s.draws + 1 }) ∧
    (∀ e, decode w = .error e →
      step s = .next { s with inbox := rest, hostIndex := s.hostIndex + 1, turns := s.nextTurn.2,
                              draws := s.draws + 1, fault := s.fault ||| 0b00001 })

/-- R52: the first byte of a pair executes nothing, and the second completes a word (the first byte low with LITTLE
and high with BIG) that is then carried out as a whole word is. That the host's index counts whole words is the model's choice (log 10). -/
def Obligations.StepPairsBytes : Prop :=
  ∀ (s : State) (b : Byte) (rest : List PortEvent), s.nextTurn.1 = .host → s.inbox = .byte b :: rest →
    (s.half = none →
      step s = .next { s with inbox := rest, half := some b, turns := s.nextTurn.2, draws := s.draws + 1 }) ∧
    (∀ b0 i, s.half = some b0 →
      decode (match s.params.cmdByteOrder with | .little => b ++ b0 | .big => b0 ++ b) = .ok i →
      step s = exec i { s with inbox := rest, half := none, hostIndex := s.hostIndex + 1,
                               turns := s.nextTurn.2, draws := s.draws + 1 }) ∧
    (∀ b0 e, s.half = some b0 →
      decode (match s.params.cmdByteOrder with | .little => b ++ b0 | .big => b0 ++ b) = .error e →
      step s = .next { s with inbox := rest, half := none, hostIndex := s.hostIndex + 1,
                              turns := s.nextTurn.2, draws := s.draws + 1, fault := s.fault ||| 0b00001 })

/-- R39, R170: the reset input sets every element to its value of R39 from any state, restarts the framing,
discards the word being presented, and leaves every output at `Z`. That later events wait, and that the host's
index goes on, is the model's choice (log 8, 10). -/
def Obligations.StepTakesReset : Prop :=
  ∀ (s : State) (p : Option Word) (rest : List PortEvent), s.nextTurn.1 = .host →
    s.inbox = .reset p :: rest →
    ∃ t, step s = .next t ∧
      t.tcfg = 0 ∧ t.cnt = 0 ∧ t.auxEn = 0 ∧ t.ledEn = 0 ∧ t.fault = 0 ∧ t.half = none ∧
      t.top.unspec = true ∧ t.cmp.unspec = true ∧ t.cmpAct.unspec = true ∧ t.auxPhase.unspec = true ∧
      t.phaseNow.toNat ≤ 254 ∧
      (∀ k : Fin 4, t.auxDuty[k].unspec = true ∧ t.auxAct[k].unspec = true ∧ t.ledLine[k].unspec = true) ∧
      priOut t = .z ∧ (∀ k, auxOut t k = .z) ∧ (∀ i c, ledOut t i c = .z) ∧
      t.inbox = rest ∧ t.hostIndex = s.hostIndex

/-- R7, R96, R114: `CARRIER` is enabled exactly when `TCFG.RUN = 1` and `AUXCLK` always, and any enabled agent may
take the next step. That `HOST` is enabled exactly while an event waits (log 8), and that a list of turns in the
state says who steps (log 7), are the model's choices: the rules say neither. -/
def Obligations.EnabledAgentMayStep : Prop :=
  ∀ s : State,
    (s.enabled .host = true ↔ s.inbox ≠ []) ∧ (s.enabled .carrier = true ↔ s.tcfg.getLsbD 0 = true) ∧
    s.enabled .auxclk = true ∧
    (∀ a rest, s.enabled a = true →
      step { s with turns := a :: rest } = agentStep a { s with turns := rest, draws := s.draws + 1 })

/-- R7, R146: every step is the step of one agent, and of an enabled one. -/
def Obligations.StepIsOneEnabledAgent : Prop :=
  ∀ s t : State, step s = .next t →
    ∃ a rest, s.enabled a = true ∧ agentStep a { s with turns := rest, draws := s.draws + 1 } = .next t

/-- R114, R140, R148: the block never stops: every command and every step answers a next state. -/
def Obligations.BlockNeverStops : Prop :=
  (∀ (i : Instr) (s : State), ∃ t, exec i s = .next t) ∧ (∀ s : State, ∃ t, step s = .next t)

/-- R39: every element after reset (an `UNSPEC` aux phase reads within 0..254), and every output `Z`. -/
def Obligations.ResetState : Prop :=
  State.reset.tcfg = 0b0000 ∧ State.reset.top.unspec = true ∧ State.reset.cnt = 0 ∧
  State.reset.cmp.unspec = true ∧ State.reset.cmpAct.unspec = true ∧
  (∀ k : Fin 4, State.reset.auxDuty[k].unspec = true ∧ State.reset.auxAct[k].unspec = true ∧
    State.reset.ledLine[k].unspec = true) ∧
  State.reset.auxEn = 0b0000 ∧ State.reset.auxPhase.unspec = true ∧ State.reset.phaseNow.toNat ≤ 254 ∧
  State.reset.ledEn = 0b0000 ∧
  State.reset.fault = 0b00000 ∧
  priOut State.reset = .z ∧ (∀ k, auxOut State.reset k = .z) ∧ (∀ i c, ledOut State.reset i c = .z)

/-- R171: while nothing has been configured and no event waits, only `AUXCLK` steps, and every output stays
`Z`. -/
def Obligations.IdleUntilCommand : Prop :=
  ∀ s t : State, s.inbox = [] → s.tcfg = 0 → s.auxEn = 0 → s.ledEn = 0 → step s = .next t →
    (∃ rest, t = auxclkStep { s with turns := rest, draws := s.draws + 1 }) ∧
    t.inbox = [] ∧ t.tcfg = 0 ∧ t.auxEn = 0 ∧ t.ledEn = 0 ∧ t.fault = s.fault ∧
    priOut t = .z ∧ (∀ k, auxOut t k = .z) ∧ (∀ i c, ledOut t i c = .z)

/-! ## The commands -/

/-- R90: on a stopped timer CFGP writes `TOP`, `CNT`, `CMP_ACT` and `TCFG` and nothing else, `CMP_ACT` takes
`CMP` with its `UNSPEC` mark, and the primary pin is driven. -/
def Obligations.CfgpStartsTimer : Prop :=
  ∀ s : State, s.run = false →
    ∃ t, exec .cfgp s = .next t ∧
      t = { s with tcfg := 0b0111, top := ⟨BitVec.ofNat 16 (s.params.period - 1), false⟩, cnt := 0,
                   cmpAct := s.cmp } ∧
      t.top.held.toNat = s.params.period - 1 ∧ (priOut t = .low ∨ priOut t = .high)

/-- R91: CFGP on a configured timer sets the RECONFIGURE bit of FAULT and changes nothing else. -/
def Obligations.SecondCfgpFaults : Prop :=
  ∀ s : State, s.run = true →
    exec .cfgp s = .next { s with fault := s.fault ||| 0b10000 }

/-- R92, R93: on a configured timer SETP with a percent in 0..100 writes the compare value to `CMP` and nothing
else; the value is that of the machine's `PRI_ROUND`, whichever it is (HALF_UP written out), not cut to 16 bits; 0
percent gives `PERIOD` and 100 gives 0. -/
def Obligations.SetpWritesCompareValue : Prop :=
  ∀ (s : State) (pct : Nat), s.run = true → pct ≤ 100 →
    ∃ v : BitVec 16, exec (.setp pct) s = .next { s with cmp := ⟨v, false⟩ } ∧
      v.toNat = cmpValue s.params.priRound s.params.period pct ∧
      (s.params.priRound = .halfUp → v.toNat = (s.params.period * (100 - pct) + 50) / 100) ∧
      v.toNat ≤ s.params.period ∧ (pct = 0 → v.toNat = s.params.period) ∧ (pct = 100 → v.toNat = 0)

/-- R92, R142, R145: before configuration SETP raises NOT_CONFIGURED whatever its percent; on a configured
timer a percent of 101 or more raises RANGE; nothing else changes. -/
def Obligations.SetpFaults : Prop :=
  ∀ (s : State) (pct : Nat),
    (s.run = false → exec (.setp pct) s = .next { s with fault := s.fault ||| 0b01000 }) ∧
    (s.run = true → 100 < pct →
      exec (.setp pct) s = .next { s with fault := s.fault ||| 0b00010 })

/-- R110, R111: on a configured timer SETA with a percent in 0..100 writes the native duty of its channel, that of
the machine's `AUX_ROUND`, whichever it is (HALF_UP written out; D7); the first SETA of a channel also loads it into
use and enables the pin; nothing else changes; 0 percent gives 0 and 100 gives 255. -/
def Obligations.SetaWritesNativeDuty : Prop :=
  ∀ (s : State) (ch : Fin 4) (pct : Nat), s.run = true → pct ≤ 100 →
    ∃ d : BitVec 8, d.toNat = auxValue s.params.auxRound pct ∧
      (s.params.auxRound = .halfUp → d.toNat = (255 * pct + 50) / 100) ∧
      (s.auxEnabled ch = true →
        exec (.seta ch pct) s = .next { s with auxDuty := s.auxDuty.set ch ⟨d, false⟩ }) ∧
      (s.auxEnabled ch = false →
        exec (.seta ch pct) s =
          .next { s with auxDuty := s.auxDuty.set ch ⟨d, false⟩, auxAct := s.auxAct.set ch ⟨d, false⟩,
                         auxEn := s.auxEn ||| BitVec.twoPow 4 ch.val }) ∧
      (pct = 0 → d = 0) ∧ (pct = 100 → d = 255)

/-- R110, R142, R145: before configuration SETA raises NOT_CONFIGURED whatever its operands; on a configured
timer a percent of 101 or more raises RANGE; nothing else changes. -/
def Obligations.SetaFaults : Prop :=
  ∀ (s : State) (ch : Fin 4) (pct : Nat),
    (s.run = false → exec (.seta ch pct) s = .next { s with fault := s.fault ||| 0b01000 }) ∧
    (s.run = true → 100 < pct →
      exec (.seta ch pct) s = .next { s with fault := s.fault ||| 0b00010 })

/-- R125, R126: LED with a code of the table writes the row's pattern to its indicator, enables it and changes
nothing else, whether or not the timer is configured; the three lines then show the row's tuple. -/
def Obligations.LedAppliesPattern : Prop :=
  ∀ (s : State) (ind : Fin 4),
    ∀ row ∈ [(0, 0b000#3, Pin.low, Pin.low, Pin.low), (1, 0b100#3, Pin.high, Pin.low, Pin.low),
             (2, 0b010#3, Pin.low, Pin.high, Pin.low), (3, 0b001#3, Pin.low, Pin.low, Pin.high),
             (4, 0b111#3, Pin.high, Pin.high, Pin.high)],
      ∃ t, exec (.led ind row.1) s = .next t ∧
        t = { s with ledLine := s.ledLine.set ind ⟨row.2.1, false⟩, ledEn := s.ledEn ||| BitVec.twoPow 4 ind.val } ∧
        ledOut t ind .red = row.2.2.1 ∧ ledOut t ind .green = row.2.2.2.1 ∧
        ledOut t ind .blue = row.2.2.2.2

/-- R81, R125, R142: LED with a code of 5 or more raises BAD_COLOR and changes nothing else. -/
def Obligations.LedInvalidColourFaults : Prop :=
  ∀ (s : State) (ind : Fin 4) (col : Nat), 4 < col →
    exec (.led ind col) s = .next { s with fault := s.fault ||| 0b00100 }

/-- R38, R54, R142: the frame of each command: which elements it may write. Every other element, and the
model's own fields, are as before. -/
def Obligations.CommandFrames : Prop :=
  ∀ s t : State,
    (exec .cfgp s = .next t →
      t = { s with tcfg := t.tcfg, top := t.top, cnt := t.cnt, cmpAct := t.cmpAct, fault := t.fault }) ∧
    (∀ pct, exec (.setp pct) s = .next t → t = { s with cmp := t.cmp, fault := t.fault }) ∧
    (∀ ch pct, exec (.seta ch pct) s = .next t →
      t = { s with auxDuty := t.auxDuty, auxAct := t.auxAct, auxEn := t.auxEn, fault := t.fault } ∧
      ∀ k : Fin 4, k ≠ ch → t.auxDuty[k] = s.auxDuty[k] ∧ t.auxAct[k] = s.auxAct[k] ∧
        t.auxEnabled k = s.auxEnabled k) ∧
    (∀ ind col, exec (.led ind col) s = .next t →
      t = { s with ledLine := t.ledLine, ledEn := t.ledEn, fault := t.fault } ∧
      ∀ k : Fin 4, k ≠ ind → t.ledLine[k] = s.ledLine[k] ∧ t.ledEnabled k = s.ledEnabled k)

/-- R23, R38: the frame of each clock step: `CARRIER` writes `CNT` and `CMP_ACT`, `AUXCLK` writes `AUX_PHASE`
and `AUX_ACT`, and neither touches anything else, `FAULT` included. -/
def Obligations.ClockFrames : Prop :=
  ∀ s : State,
    carrierStep s = { s with cnt := (carrierStep s).cnt, cmpAct := (carrierStep s).cmpAct } ∧
    auxclkStep s = { s with auxPhase := (auxclkStep s).auxPhase, auxAct := (auxclkStep s).auxAct }

/-! ## Faults -/

/-- R36, R140, R141: the code and the bit of each fault, and that raising one sets its own bit only. -/
def Obligations.FaultBits : Prop :=
  (FaultCode.code .illegal = 1 ∧ FaultCode.code .range = 2 ∧ FaultCode.code .badColor = 3 ∧
    FaultCode.code .notConfigured = 4 ∧ FaultCode.code .reconfigure = 5) ∧
  (∀ (s : State) (c : FaultCode), s.raise c = { s with fault := (s.raise c).fault } ∧
    ∀ k, k < 5 → (s.raise c).fault.getLsbD k = (s.fault.getLsbD k || decide (k + 1 = c.code)))

/-- R142, R145: issuing a word raises at most one fault; the checks run in the order decode, configuration,
operand, and the first that fails decides; a fault writes `FAULT` and nothing else of the block. -/
def Obligations.FaultPriority : Prop :=
  ∀ (w : Word) (s : State), ∃ t, issueWord w s = .next t ∧
    (∀ e, decode w = .error e → t = State.raise { s with hostIndex := s.hostIndex + 1 } .illegal) ∧
    (decode w = .ok .cfgp → s.run = true →
      t = State.raise { s with hostIndex := s.hostIndex + 1 } .reconfigure) ∧
    (∀ pct, decode w = .ok (.setp pct) ∨ (∃ ch, decode w = .ok (.seta ch pct)) →
      (s.run = false → t = State.raise { s with hostIndex := s.hostIndex + 1 } .notConfigured) ∧
      (s.run = true → 100 < pct → t = State.raise { s with hostIndex := s.hostIndex + 1 } .range)) ∧
    (∀ ind col, decode w = .ok (.led ind col) → 4 < col →
      t = State.raise { s with hostIndex := s.hostIndex + 1 } .badColor) ∧
    (t.fault = s.fault ∨ ∃ c, t = State.raise { s with hostIndex := s.hostIndex + 1 } c)

/-- R140, R149: a fault bit, once set, stays set in every step but the one that takes the reset input. -/
def Obligations.FaultBitsSticky : Prop :=
  ∀ (s t : State) (c : FaultCode), step s = .next t → s.faulted c = true →
    t.faulted c = true ∨ (s.nextTurn.1 = .host ∧ ∃ p rest, s.inbox = .reset p :: rest)

/-- R25, R32, R35: an output enable (the primary pin's `TCFG.OE`, `AUX_EN`, `LED_EN`), once set, and `TCFG.RUN`
stay set in every step but the one that takes the reset input. -/
def Obligations.OutputEnablesSticky : Prop :=
  ∀ s t : State, step s = .next t →
    ((∀ k, s.auxEnabled k = true → t.auxEnabled k = true) ∧
      (∀ k, s.ledEnabled k = true → t.ledEnabled k = true) ∧ (s.oe = true → t.oe = true) ∧
      (s.run = true → t.run = true)) ∨
    (s.nextTurn.1 = .host ∧ ∃ p rest, s.inbox = .reset p :: rest)

/-- R160, R163: a word that meets the host's duties executes without fault, and its effect is that of its
rule. -/
def Obligations.DutifulWordTakesEffect : Prop :=
  ∀ (w : Word) (s : State), meetsDuty s w = true →
    ∃ i t, decode w = .ok i ∧ issueWord w s = .next t ∧ t.fault = s.fault ∧
      match i with
      | .cfgp => t = State.startTimer { s with hostIndex := s.hostIndex + 1 } s.params.period
      | .setp pct =>
        t = { s with hostIndex := s.hostIndex + 1,
                     cmp := .fixed (BitVec.ofNat 16 (cmpValue s.params.priRound s.params.period pct)) }
      | .seta ch pct =>
        t = State.setAux { s with hostIndex := s.hostIndex + 1 } ch
          (BitVec.ofNat 8 (auxValue s.params.auxRound pct))
      | .led ind col =>
        ∃ c : Color, col = c.code ∧ t = State.writeLed { s with hostIndex := s.hostIndex + 1 } ind (pattern c)

/-- R143, R163: from a clean state, any step whose word, if it issues one, meets the host's duties leaves a
clean state, whichever agent steps. -/
def Obligations.DutifulHostStaysClean : Prop :=
  ∀ s t : State, Clean s → (∀ w, issuedWord s = some w → meetsDuty s w = true) → step s = .next t → Clean t

/-! ## The value functions -/

/-- R94: the laws of the compare value under HALF_UP, and the symmetry under HALF_EVEN. -/
def Obligations.CompareValueLaws : Prop :=
  ∀ n : Nat, 1 ≤ n → n ≤ 65535 →
    (cmpValue .halfUp n 0 = n ∧ cmpValue .halfUp n 100 = 0) ∧
    (∀ p q, p ≤ q → q ≤ 100 → cmpValue .halfUp n q ≤ cmpValue .halfUp n p) ∧
    (∀ p, p ≤ 100 → cmpValue .halfUp n p ≤ n) ∧
    (∀ f, f ≤ 100 → n * f % 100 ≠ 50 → cmpValue .halfUp n f + cmpValue .halfUp n (100 - f) = n) ∧
    (∀ f, f ≤ 100 → n * f % 100 = 50 → cmpValue .halfUp n f + cmpValue .halfUp n (100 - f) = n + 1) ∧
    ((∃ f, f ≤ 100 ∧ n * f % 100 = 50) ↔ n % 4 ≠ 0) ∧
    (n % 2 = 1 → n * 50 % 100 = 50) ∧ (n % 4 = 2 → n * 25 % 100 = 50) ∧
    (n = 65535 → ∀ f, f ≤ 100 → (n * f % 100 = 50 ↔ f = 10 ∨ f = 30 ∨ f = 50 ∨ f = 70 ∨ f = 90)) ∧
    ((∀ f, f ≤ 100 → cmpValue .halfUp n f + cmpValue .halfUp n (100 - f) = n) ↔ n % 4 = 0) ∧
    (n % 2 = 0 → ∀ f, f ≤ 100 → cmpValue .halfEven n f + cmpValue .halfEven n (100 - f) = n) ∧
    (n % 2 = 1 → ∀ f, f ≤ 100 →
      (n * f % 100 ≠ 50 → cmpValue .halfEven n f + cmpValue .halfEven n (100 - f) = n) ∧
      (n * f % 100 = 50 →
        cmpValue .halfEven n f + cmpValue .halfEven n (100 - f) = n - 1 ∨
        cmpValue .halfEven n f + cmpValue .halfEven n (100 - f) = n + 1))

/-- R93: every mode's compare value is in `0..PERIOD`; BINARY64 is always HALF_UP; HALF_EVEN differs from
HALF_UP only at a tie. For TRUNC the statement says where it differs by the definition of R93 (log 19: the rule's
own last sentence on TRUNC is not literally so). -/
def Obligations.CompareValueModes : Prop :=
  ∀ n p : Nat, 1 ≤ n → n ≤ 65535 → p ≤ 100 →
    (∀ mode, cmpValue mode n p ≤ n) ∧
    cmpValue .binary64 n p = cmpValue .halfUp n p ∧
    (cmpValue .halfEven n p ≠ cmpValue .halfUp n p → n * (100 - p) % 100 = 50 ∧ n % 4 ≠ 0) ∧
    (cmpValue .trunc n p ≠ cmpValue .halfUp n p ↔ 50 ≤ n * (100 - p) % 100)

/-- R113: the laws of the native duty under HALF_UP. -/
def Obligations.NativeDutyLaws : Prop :=
  (auxValue .halfUp 0 = 0 ∧ auxValue .halfUp 100 = 255) ∧
  (∀ p q, p < q → q ≤ 100 → auxValue .halfUp p < auxValue .halfUp q) ∧
  (∀ p : Nat, p ≤ 100 → |((auxValue .halfUp p : Nat) : Rat) - 255 / 100 * (p : Rat)| ≤ 1 / 2)

/-- R112: the five ties, the five modes at them, their agreement everywhere else, and the four binary products
the rule names: in binary64 the values written 127.49999999999999 and 229.49999999999997, in binary32 the ties. -/
def Obligations.NativeDutyTies : Prop :=
  (∀ p, p ≤ 100 → (255 * p % 100 = 50 ↔ p = 10 ∨ p = 30 ∨ p = 50 ∨ p = 70 ∨ p = 90)) ∧
  (∀ row ∈ [(10, 26, 26, 26, 26, 25), (30, 77, 76, 77, 77, 76), (50, 128, 128, 127, 128, 127),
            (70, 179, 178, 179, 179, 178), (90, 230, 230, 229, 230, 229)],
    auxValue .halfUp row.1 = row.2.1 ∧ auxValue .halfEven row.1 = row.2.2.1 ∧
    auxValue .binary64 row.1 = row.2.2.2.1 ∧ auxValue .binary32 row.1 = row.2.2.2.2.1 ∧
    auxValue .trunc row.1 = row.2.2.2.2.2) ∧
  (∀ p, p ≤ 100 → 255 * p % 100 ≠ 50 →
    auxValue .halfEven p = auxValue .halfUp p ∧ auxValue .binary64 p = auxValue .halfUp p ∧
    auxValue .binary32 p = auxValue .halfUp p) ∧
  (∀ p, p ≤ 100 → (auxValue .trunc p ≠ auxValue .halfUp p ↔ 50 ≤ 255 * p % 100)) ∧
  (ieeeRound 53 (50 * ieeeRound 53 255 100) ieeeScale = ieeeRound 53 12749999999999999 (10 ^ 14) ∧
    ieeeRound 53 (90 * ieeeRound 53 255 100) ieeeScale = ieeeRound 53 22949999999999997 (10 ^ 14) ∧
    2 * ieeeRound 24 (50 * ieeeRound 24 255 100) ieeeScale = 255 * ieeeScale ∧
    2 * ieeeRound 24 (90 * ieeeRound 24 255 100) ieeeScale = 459 * ieeeScale)

/-- R95: the raw-low fraction of a carrier cycle is within `1 / (2 * PERIOD)` of `p / 100`. -/
def Obligations.EffectivePrimaryDuty : Prop :=
  ∀ n p : Nat, 1 ≤ n → n ≤ 65535 → p ≤ 100 →
    |((n : Rat) - (cmpValue .halfUp n p : Nat)) / (n : Rat) - (p : Rat) / 100| ≤ 1 / (2 * (n : Rat))

/-! ## The outputs -/

/-- R98: the primary pin, and its two ends. An `UNSPEC` compare value still drives the pin (R174). -/
def Obligations.PrimaryPinRule : Prop :=
  ∀ s : State,
    (s.oe = false → priOut s = .z) ∧
    (s.oe = true → s.cmpAct.unspec = false →
      (s.cnt.toNat < s.cmpAct.held.toNat → priOut s = .high) ∧
      (s.cmpAct.held.toNat ≤ s.cnt.toNat → priOut s = .low) ∧
      (s.cmpAct.held = 0 → priOut s = .low) ∧
      (PrimaryInv s → s.params.period ≤ s.cmpAct.held.toNat → priOut s = .high)) ∧
    (s.oe = true → s.cmpAct.unspec = true → priOut s = .low ∨ priOut s = .high)

/-- R99: over the `PERIOD` counter values of a carrier cycle with compare value `c` in use, the pin is high at
exactly `min(c, PERIOD)` of them and low at the rest; for `c = cmp_value(p)`, in any rounding mode, that is
`cmp_value(p)` and `PERIOD - cmp_value(p)`. -/
def Obligations.PrimaryHighTime : Prop :=
  ∀ (s : State) (c : BitVec 16) (n : Nat), s.oe = true → s.cmpAct = ⟨c, false⟩ → n ≤ 65535 →
    (List.range n).countP (fun k => priOut { s with cnt := BitVec.ofNat 16 k } == .high) = min c.toNat n ∧
    (List.range n).countP (fun k => priOut { s with cnt := BitVec.ofNat 16 k } == .low) = n - min c.toNat n ∧
    (∀ mode p, c.toNat = cmpValue mode n p →
      (List.range n).countP (fun k => priOut { s with cnt := BitVec.ofNat 16 k } == .high)
        = cmpValue mode n p ∧
      (List.range n).countP (fun k => priOut { s with cnt := BitVec.ofNat 16 k } == .low)
        = n - cmpValue mode n p)

/-- R116: an auxiliary pin. With an `UNSPEC` phase or duty an enabled pin is still driven (R21). -/
def Obligations.AuxiliaryPinRule : Prop :=
  ∀ (s : State) (ch : Fin 4),
    (s.auxEnabled ch = false → auxOut s ch = .z) ∧
    (s.auxEnabled ch = true → s.auxPhase.unspec = false → s.auxAct[ch].unspec = false →
      (s.auxPhase.held.toNat < s.auxAct[ch].held.toNat → auxOut s ch = .high) ∧
      (s.auxAct[ch].held.toNat ≤ s.auxPhase.held.toNat → auxOut s ch = .low)) ∧
    (s.auxEnabled ch = true → auxOut s ch = .low ∨ auxOut s ch = .high)

/-- R117: over the 255 phases of an aux cycle with native duty `d` in use, the pin is high at exactly `d` of
them and low at the rest, and for the native duty of `p` percent the high fraction is within `1/510` of
`p / 100`. -/
def Obligations.AuxiliaryHighTime : Prop :=
  (∀ (s : State) (ch : Fin 4) (d : BitVec 8), s.auxEnabled ch = true → s.auxAct[ch] = ⟨d, false⟩ →
    (List.range 255).countP
      (fun k => auxOut { s with auxPhase := ⟨BitVec.ofNat 8 k, false⟩ } ch == .high) = d.toNat ∧
    (List.range 255).countP
      (fun k => auxOut { s with auxPhase := ⟨BitVec.ofNat 8 k, false⟩ } ch == .low) = 255 - d.toNat) ∧
  (∀ p : Nat, p ≤ 100 → |((auxValue .halfUp p : Nat) : Rat) / 255 - (p : Rat) / 100| ≤ 1 / 510)

/-- R128: the three lines of an indicator: `Z` while it is disabled, then bits 2, 1 and 0 of its pattern. -/
def Obligations.LedLineRule : Prop :=
  ∀ (s : State) (i : Fin 4),
    (s.ledEnabled i = false → ∀ c, ledOut s i c = .z) ∧
    (s.ledEnabled i = true → s.ledLine[i].unspec = false →
      ledOut s i .red = (if s.ledLine[i].held.getLsbD 2 then .high else .low) ∧
      ledOut s i .green = (if s.ledLine[i].held.getLsbD 1 then .high else .low) ∧
      ledOut s i .blue = (if s.ledLine[i].held.getLsbD 0 then .high else .low))

/-- R119, R130, R41, R101: no command changes a pin of another unit in its step: SETP changes no pin at all,
SETA at most the pin of its channel, LED at most the lines of its indicator, CFGP at most the primary pin. Where the
pin reads an `UNSPEC` element its level is a draw (R21), and that the pin shows the same draw before and after is the
model's choice (log 2: one draw a place and step), which no rule states. -/
def Obligations.PinsOfOtherUnitsUnchanged : Prop :=
  ∀ (i : Instr) (s t : State), exec i s = .next t →
    (i ≠ .cfgp → priOut t = priOut s) ∧
    (∀ k, (∀ pct, i ≠ .seta k pct) → auxOut t k = auxOut s k) ∧
    (∀ k c, (∀ col, i ≠ .led k col) → ledOut t k c = ledOut s k c)

/-! ## The clocks -/

/-- R96: `CARRIER` is enabled exactly while the timer runs, and the 0 in a stopped timer's `CNT` stays in every
step, whichever agent takes it. At its turn, with `TOP` written, a step at `TOP` wraps and loads `CMP` into use, and any other
adds one to `CNT`, without overflow while `CNT` is at most `TOP`; nothing else of the block changes. -/
def Obligations.CarrierStepRule : Prop :=
  ∀ s : State,
    (s.enabled .carrier = true ↔ s.run = true) ∧
    (∀ t, s.run = false → s.cnt = 0 → step s = .next t → t.cnt = 0) ∧
    (s.nextTurn.1 = .carrier → s.top.unspec = false →
      (s.cnt = s.top.held →
        step s = .next { s with cnt := 0, cmpAct := s.cmp, turns := s.nextTurn.2, draws := s.draws + 1 }) ∧
      (s.cnt ≠ s.top.held →
        step s = .next { s with cnt := s.cnt + 1, turns := s.nextTurn.2, draws := s.draws + 1 } ∧
        (s.cnt.toNat ≤ s.top.held.toNat → (s.cnt + 1).toNat = s.cnt.toNat + 1)))

/-- R97, R101: within a carrier cycle each `CARRIER` step adds one to `CNT` and nothing else; the step after
`TOP` returns to 0 with `CMP` in use; from 0, `PERIOD` steps make one cycle. -/
def Obligations.CarrierCycleLength : Prop :=
  ∀ s : State, PrimaryInv s → s.run = true →
    (∀ k, s.cnt.toNat + k ≤ s.params.period - 1 →
      carrierStep^[k] s = { s with cnt := BitVec.ofNat 16 (s.cnt.toNat + k) }) ∧
    carrierStep^[s.params.period - s.cnt.toNat] s = { s with cnt := 0, cmpAct := s.cmp } ∧
    (s.cnt = 0 → carrierStep^[s.params.period] s = { s with cmpAct := s.cmp })

/-- R101: after SETP the pin follows the old compare value until the next wrap, which comes after at least one
and at most `PERIOD` `CARRIER` steps, and from then on the new one is in use. -/
def Obligations.SetpReachesPinAtWrap : Prop :=
  ∀ (s : State) (pct : Nat), PrimaryInv s → s.run = true → pct ≤ 100 →
    ∃ t n, exec (.setp pct) s = .next t ∧ 1 ≤ n ∧ n ≤ s.params.period ∧
      (∀ k, k < n → (carrierStep^[k] t).cmpAct = s.cmpAct) ∧
      (carrierStep^[n] t).cnt = 0 ∧ (carrierStep^[n] t).cmpAct.unspec = false ∧
      (carrierStep^[n] t).cmpAct.held.toNat = cmpValue s.params.priRound s.params.period pct

/-- R114: the `AUXCLK` step, at its turn: a wrap loads every channel's duty into use, `UNSPEC` or not; otherwise
the phase goes up by one; nothing else of the block changes. -/
def Obligations.AuxclkStepRule : Prop :=
  ∀ s : State, s.enabled .auxclk = true ∧
    (s.nextTurn.1 = .auxclk → s.auxPhase.unspec = false →
      (s.auxPhase.held = 254 →
        step s = .next { s with auxPhase := ⟨0, false⟩, auxAct := s.auxDuty, turns := s.nextTurn.2,
                                draws := s.draws + 1 }) ∧
      (s.auxPhase.held ≠ 254 →
        step s = .next { s with auxPhase := ⟨s.auxPhase.held + 1, false⟩, turns := s.nextTurn.2,
                                draws := s.draws + 1 }))

/-- R33, R114, R40 (e): an `AUXCLK` step on an `UNSPEC` phase leaves a phase within 0..254 that is no longer
`UNSPEC`, and loads the duties exactly when it leaves 0. That the step draws once is the model's reading (log
3). -/
def Obligations.AuxclkDrawsUnspecPhase : Prop :=
  ∀ s : State, s.auxPhase.unspec = true →
    (auxclkStep s).auxPhase.unspec = false ∧ (auxclkStep s).auxPhase.held.toNat ≤ 254 ∧
    ((auxclkStep s).auxPhase.held = 0 → (auxclkStep s).auxAct = s.auxDuty) ∧
    ((auxclkStep s).auxPhase.held ≠ 0 → (auxclkStep s).auxAct = s.auxAct)

/-- R114, R115: one aux cycle is 255 `AUXCLK` steps: the phase returns to where it was and every channel's
written duty is in use. -/
def Obligations.AuxCycleLength : Prop :=
  ∀ s : State, s.auxPhase.unspec = false → s.auxPhase.held.toNat ≤ 254 →
    auxclkStep^[255] s = { s with auxAct := s.auxDuty }

/-- R118: a SETA on an enabled channel leaves the duty in use until the phase next wraps to 0, which comes
after at least one and at most 255 `AUXCLK` steps; on a disabled channel the new duty is in use at once. -/
def Obligations.SetaReachesPin : Prop :=
  ∀ (s : State) (ch : Fin 4) (pct : Nat), s.run = true → pct ≤ 100 → s.auxPhase.unspec = false →
    s.auxPhase.held.toNat ≤ 254 →
    ∃ t d, exec (.seta ch pct) s = .next t ∧ 
      d = (⟨BitVec.ofNat 8 (auxValue s.params.auxRound pct), false⟩ : Elem 8) ∧
      (s.auxEnabled ch = false → t.auxAct[ch] = d ∧ t.auxEnabled ch = true) ∧
      (s.auxEnabled ch = true →
        ∃ n, 1 ≤ n ∧ n ≤ 255 ∧ (∀ k, k < n → (auxclkStep^[k] t).auxAct[ch] = s.auxAct[ch]) ∧
          (auxclkStep^[n] t).auxPhase = ⟨0, false⟩ ∧ (auxclkStep^[n] t).auxAct[ch] = d)

/-! ## Invariants and whole-machine rules -/

/-- R39, R40: the invariants hold at reset. -/
def Obligations.ResetMeetsInvariant : Prop := Inv State.reset

/-- R40: every step keeps the invariants, from every state that meets them, whichever agent steps. -/
def Obligations.StepKeepsInvariant : Prop := ∀ s t : State, Inv s → step s = .next t → Inv t

/-- R127: an enabled indicator's pattern is written and none of the three with two lines lit, and its pins are
driven and never show two of the three lines lit. -/
def Obligations.EnabledLedShowsColour : Prop :=
  ∀ s t : State, Inv s → step s = .next t → ∀ i : Fin 4, t.ledEnabled i = true →
    t.ledLine[i].unspec = false ∧
    t.ledLine[i].held ≠ 0b110 ∧ t.ledLine[i].held ≠ 0b011 ∧ t.ledLine[i].held ≠ 0b101 ∧
    ledOut t i .red ≠ .z ∧ ledOut t i .green ≠ .z ∧ ledOut t i .blue ≠ .z ∧
    [ledOut t i .red, ledOut t i .green, ledOut t i .blue].count .high ≠ 2

/-- R21: what the model holds under an `UNSPEC` mark (log 1) is never read: forgetting it changes no step and no
pin. -/
def Obligations.HeldUnderMarkNeverRead : Prop :=
  ∀ s t : State, step s = .next t →
    step (forgetUnspec s) = .next (forgetUnspec t) ∧
    priOut (forgetUnspec s) = priOut s ∧ (∀ k, auxOut (forgetUnspec s) k = auxOut s k) ∧
    (∀ i c, ledOut (forgetUnspec s) i c = ledOut s i c)

/-- R54: issuing SETP, SETA or LED twice in a row leaves the state of issuing it once; a second CFGP faults. -/
def Obligations.CommandsIdempotent : Prop :=
  ∀ (i : Instr) (s t : State), exec i s = .next t →
    (i ≠ .cfgp → exec i t = .next t) ∧
    (i = .cfgp → exec i t = .next { t with fault := t.fault ||| 0b10000 })

/-- R175: two commands other than CFGP with different targets leave the same state in either order. For two
words with one target the rule's sentence does not hold literally, and the statement leaves them out (log 19). -/
def Obligations.CommandsCommute : Prop :=
  ∀ (i j : Instr) (s : State), i ≠ .cfgp → j ≠ .cfgp → sameTarget i j = false →
    ∃ a b t, exec i s = .next a ∧ exec j a = .next t ∧ exec j s = .next b ∧ exec i b = .next t

/-- R38, R90, R92, R110, R125: what a command does depends on no draw and on no order of the agents' steps. The draw
counter and the list of turns are the model's own fields (log 2, 7). -/
def Obligations.CommandsIgnoreFreeValues : Prop :=
  ∀ (i : Instr) (s t : State) (n : Nat) (l : List Agent), exec i s = .next t →
    exec i { s with draws := n, turns := l } = .next { t with draws := n, turns := l }

/-- R7, R96: in every fair run in which the timer stays configured, whatever the host sends, `CARRIER` takes a step
that wraps `CNT` to 0 and loads `CMP` into use, and after every step there is a later one. That `HOST` counts as
enabled while an event waits is the model's choice (log 8). -/
def Obligations.FairRunReachesWrap : Prop :=
  ∀ (r : Nat → State) (came : Nat → List PortEvent) (who : Nat → Agent), IsRun r came who → Fair r who →
    PrimaryInv (r 0) → (∀ n, (r n).run = true) →
    ∀ k, ∃ m, k ≤ m ∧ who m = .carrier ∧ (r (m + 1)).cnt = 0 ∧ (r (m + 1)).cmpAct = (r m).cmp

/-- R5, R42: the parameters after reset have the values of R5's table (`PERIOD` any in 1..65535), and no command
and no step changes a parameter, whatever the parameters are. That they stand in the record the machine steps on is
the model's choice (log 24). -/
def Obligations.ParametersNeverChange : Prop :=
  (State.reset.params.priRound = .halfUp ∧ State.reset.params.auxRound = .halfUp ∧
    State.reset.params.cmdByteOrder = .little) ∧
  (∀ p : Params, 1 ≤ p.period ∧ p.period ≤ 65535) ∧
  (∀ n : Nat, 1 ≤ n → n ≤ 65535 → ∃ p : Params, p.period = n) ∧
  (∀ (i : Instr) (s t : State), exec i s = .next t → t.params = s.params) ∧
  (∀ s t : State, step s = .next t → t.params = s.params)

/-- R7, R24, R57: whichever agents are to take the steps, in any order without end, and whatever infinite sequence
of words the host issues in its turns, there is such a run: `HOST` issues the word in its step, and `CARRIER` passes
its turn to another agent only while the timer is stopped. -/
def Obligations.EveryInterleavingIsARun : Prop :=
  ∀ (s : State) (want : Nat → Agent) (w : Nat → Word), s.inbox = [] →
    ∃ (r : Nat → State) (came : Nat → List PortEvent) (who : Nat → Agent), r 0 = s ∧ IsRun r came who ∧
      ∀ n, (r n).inbox = [] ∧
        (want n = .host → who n = .host ∧ ∃ rest, issueWord (w n) ((r n).begin rest) = .next (r (n + 1))) ∧
        (want n = .carrier → (r n).run = true → who n = .carrier) ∧
        (want n = .auxclk → who n = .auxclk)
end

