-- ==== Sys2Proof/Laws/Config.lean ====
section
/-! SUPPORT. The bounds of the parameters (00_scope.md R5) and of the value functions in every rounding mode
(40_primary_pwm.md R93, 41_aux_pwm.md R111). -/

namespace Sys2Proof

theorem Params.period_pos (p : Params) : 1 ≤ p.period := Nat.le_add_left 1 _

theorem Params.period_le (p : Params) : p.period ≤ 65535 := p.periodLess1.isLt

theorem Params.period_pred (p : Params) : p.period - 1 = p.periodLess1.val := rfl

namespace Machine

theorem cmpValue_halfUp (n p : Nat) : cmpValue .halfUp n p = (n * (100 - p) + 50) / 100 := rfl

/-- A held value and what it is rounded to differ by at most one unit in the last place, and a whole number of
units is kept. -/
theorem ieeeRound_near (prec num den : Nat) :
    ∃ e, e = Nat.log2 (num * ieeeScale / den) + 1 - prec ∧
      ieeeRound prec num den ≤ num * ieeeScale / den + 2 ^ e ∧
      num * ieeeScale / den ≤ ieeeRound prec num den + 2 ^ e ∧
      (num * ieeeScale / den % 2 ^ e = 0 → ieeeRound prec num den = num * ieeeScale / den) := by
  refine ⟨_, rfl, ?_⟩
  unfold ieeeRound
  generalize num * ieeeScale / den = q
  generalize num * ieeeScale % den = c
  dsimp only
  have hpos : 0 < 2 ^ (Nat.log2 q + 1 - prec) := Nat.two_pow_pos _
  generalize 2 ^ (Nat.log2 q + 1 - prec) = ulp at hpos ⊢
  have hm := Nat.mod_lt q hpos
  have hd : q / ulp * ulp + q % ulp = q := Nat.div_add_mod' q ulp
  have hs : (q / ulp + 1) * ulp = q / ulp * ulp + ulp := Nat.succ_mul _ _
  rw [hs]
  split <;> rename_i h
  · have : ulp ≤ 2 * (q % ulp) := by rcases h with h | h <;> omega
    omega
  · omega

/-- BINARY64 always gives the HALF_UP value (R93): a tie is exact, and every other quotient is too far from one. -/
theorem ieeeHundredth_eq {x : Nat} (hx : x ≤ 6553500) : ieeeHundredth 53 x = hundredthsHalfUp x := by
  obtain ⟨e, he, hle, hge, hexact⟩ := ieeeRound_near 53 x 100
  unfold ieeeHundredth ieeeNearestInt hundredthsHalfUp
  generalize ieeeRound 53 x 100 = v at *
  simp only [ieeeScale] at *
  have he : e ≤ 91 := by
    rcases Nat.eq_zero_or_pos (x * 2 ^ 128 / 100) with h0 | h0
    · rw [h0] at he; simp at he; omega
    · have : Nat.log2 (x * 2 ^ 128 / 100) < 144 := (Nat.log2_lt (by omega)).mpr (by omega)
      omega
  have hu : 2 ^ e ≤ 2 ^ 91 := Nat.pow_le_pow_right (by decide) he
  obtain ⟨k, r, rfl, hr⟩ : ∃ k r, x = 100 * k + r ∧ r < 100 := ⟨x / 100, x % 100, by omega, by omega⟩
  have hq : (100 * k + r) * 2 ^ 128 / 100 = k * 2 ^ 128 + r * 2 ^ 128 / 100 := by omega
  rw [hq] at hle hge hexact
  rcases Nat.lt_trichotomy r 50 with h | rfl | h
  · have : (100 * k + r + 50) / 100 = k := by omega
    rw [this, Nat.div_eq_iff (by decide)]
    omega
  · have hdvd : 2 ^ e ∣ 2 ^ 127 := Nat.pow_dvd_pow 2 (by omega)
    have h127 : k * 2 ^ 128 + 50 * 2 ^ 128 / 100 = (2 * k + 1) * 2 ^ 127 := by omega
    rw [hexact (by rw [h127]; exact Nat.mod_eq_zero_of_dvd (Nat.dvd_mul_left_of_dvd hdvd _))]
    omega
  · have : (100 * k + r + 50) / 100 = k + 1 := by omega
    rw [this, Nat.div_eq_iff (by decide)]
    omega

/-- Every mode's compare value is in `0..PERIOD` (R93). -/
theorem cmpValue_le (mode : PriRound) {n : Nat} (hn : n ≤ 65535) (p : Nat) : cmpValue mode n p ≤ n := by
  have hx : n * (100 - p) ≤ n * 100 := Nat.mul_le_mul_left n (Nat.sub_le 100 p)
  cases mode <;> simp only [cmpValue, roundPrimary]
  · simp only [hundredthsHalfUp]; omega
  · simp only [hundredthsHalfEven]; split <;> omega
  · rw [ieeeHundredth_eq (by omega), hundredthsHalfUp]; omega
  · simp only [hundredthsTrunc]; omega

theorem auxValue_halfUp (p : Nat) : auxValue .halfUp p = (255 * p + 50) / 100 := rfl

/-- Every mode's native duty is in 0..255 (R111). -/
theorem auxValue_le (mode : AuxRound) {p : Nat} (h : p ≤ 100) : auxValue mode p ≤ 255 := by
  have table : ∀ q, q < 101 → auxValue .binary64 q ≤ 255 ∧ auxValue .binary32 q ≤ 255 := by decide +kernel
  cases mode
  · rw [auxValue_halfUp]; omega
  · simp only [auxValue, roundAux, hundredthsHalfEven]; split <;> omega
  · exact (table p (by omega)).1
  · exact (table p (by omega)).2
  · simp only [auxValue, roundAux, hundredthsTrunc]; omega

/-- The compare value SETP writes fits its 16 bits (R27, R93). -/
theorem toNat_cmpValue (q : Params) (p : Nat) :
    (BitVec.ofNat 16 (cmpValue q.priRound q.period p)).toNat = cmpValue q.priRound q.period p := by
  have h := cmpValue_le q.priRound q.period_le p
  have := q.period_le
  rw [BitVec.toNat_ofNat]
  exact Nat.mod_eq_of_lt (by omega)

/-- The native duty SETA writes fits its 8 bits (R30, R111). -/
theorem toNat_auxValue (mode : AuxRound) {p : Nat} (h : p ≤ 100) :
    (BitVec.ofNat 8 (auxValue mode p)).toNat = auxValue mode p := by
  rw [BitVec.toNat_ofNat]
  exact Nat.mod_eq_of_lt (Nat.lt_succ_of_le (auxValue_le mode h))

end Machine

end Sys2Proof
end

