-- ==== Sys2Proof/Laws/State.lean ====
section
/-! SUPPORT. One lemma per field for every update of the state: what the update writes and what it leaves. -/

namespace Sys2Proof.Machine

@[simp] theorem Elem.fixed_held {w : Nat} (v : BitVec w) : (Elem.fixed v).held = v := rfl
@[simp] theorem Elem.fixed_unspec {w : Nat} (v : BitVec w) : (Elem.fixed v).unspec = false := rfl
@[simp] theorem Elem.unspecified_unspec {w : Nat} : (Elem.unspecified (w := w)).unspec = true := rfl
@[simp] theorem Elem.read_fixed {w : Nat} (v d : BitVec w) : (Elem.fixed v).read d = v := rfl
@[simp] theorem Elem.read_unspecified {w : Nat} (d : BitVec w) : (Elem.unspecified).read d = d := rfl

@[simp] theorem State.raise_tcfg (s : State) (c : FaultCode) : (s.raise c).tcfg = s.tcfg := rfl
@[simp] theorem State.raise_top (s : State) (c : FaultCode) : (s.raise c).top = s.top := rfl
@[simp] theorem State.raise_cnt (s : State) (c : FaultCode) : (s.raise c).cnt = s.cnt := rfl
@[simp] theorem State.raise_cmp (s : State) (c : FaultCode) : (s.raise c).cmp = s.cmp := rfl
@[simp] theorem State.raise_cmpAct (s : State) (c : FaultCode) : (s.raise c).cmpAct = s.cmpAct := rfl
@[simp] theorem State.raise_auxDuty (s : State) (c : FaultCode) : (s.raise c).auxDuty = s.auxDuty := rfl
@[simp] theorem State.raise_auxAct (s : State) (c : FaultCode) : (s.raise c).auxAct = s.auxAct := rfl
@[simp] theorem State.raise_auxEn (s : State) (c : FaultCode) : (s.raise c).auxEn = s.auxEn := rfl
@[simp] theorem State.raise_auxPhase (s : State) (c : FaultCode) : (s.raise c).auxPhase = s.auxPhase := rfl
@[simp] theorem State.raise_ledLine (s : State) (c : FaultCode) : (s.raise c).ledLine = s.ledLine := rfl
@[simp] theorem State.raise_ledEn (s : State) (c : FaultCode) : (s.raise c).ledEn = s.ledEn := rfl
@[simp] theorem State.raise_fault (s : State) (c : FaultCode) : (s.raise c).fault = setBit s.fault c.bit := rfl
@[simp] theorem State.raise_half (s : State) (c : FaultCode) : (s.raise c).half = s.half := rfl
@[simp] theorem State.raise_inbox (s : State) (c : FaultCode) : (s.raise c).inbox = s.inbox := rfl
@[simp] theorem State.raise_hostIndex (s : State) (c : FaultCode) : (s.raise c).hostIndex = s.hostIndex := rfl
@[simp] theorem State.raise_turns (s : State) (c : FaultCode) : (s.raise c).turns = s.turns := rfl
@[simp] theorem State.raise_draws (s : State) (c : FaultCode) : (s.raise c).draws = s.draws := rfl
@[simp] theorem State.raise_params (s : State) (c : FaultCode) : (s.raise c).params = s.params := rfl

@[simp] theorem State.writeTcfg_tcfg (s : State) (v : BitVec 4) : (s.writeTcfg v).tcfg = v &&& 0b0111 := rfl
@[simp] theorem State.writeTcfg_top (s : State) (v : BitVec 4) : (s.writeTcfg v).top = s.top := rfl
@[simp] theorem State.writeTcfg_cnt (s : State) (v : BitVec 4) : (s.writeTcfg v).cnt = s.cnt := rfl
@[simp] theorem State.writeTcfg_cmp (s : State) (v : BitVec 4) : (s.writeTcfg v).cmp = s.cmp := rfl
@[simp] theorem State.writeTcfg_cmpAct (s : State) (v : BitVec 4) : (s.writeTcfg v).cmpAct = s.cmpAct := rfl
@[simp] theorem State.writeTcfg_auxDuty (s : State) (v : BitVec 4) : (s.writeTcfg v).auxDuty = s.auxDuty := rfl
@[simp] theorem State.writeTcfg_auxAct (s : State) (v : BitVec 4) : (s.writeTcfg v).auxAct = s.auxAct := rfl
@[simp] theorem State.writeTcfg_auxEn (s : State) (v : BitVec 4) : (s.writeTcfg v).auxEn = s.auxEn := rfl
@[simp] theorem State.writeTcfg_auxPhase (s : State) (v : BitVec 4) : (s.writeTcfg v).auxPhase = s.auxPhase := rfl
@[simp] theorem State.writeTcfg_ledLine (s : State) (v : BitVec 4) : (s.writeTcfg v).ledLine = s.ledLine := rfl
@[simp] theorem State.writeTcfg_ledEn (s : State) (v : BitVec 4) : (s.writeTcfg v).ledEn = s.ledEn := rfl
@[simp] theorem State.writeTcfg_fault (s : State) (v : BitVec 4) : (s.writeTcfg v).fault = s.fault := rfl
@[simp] theorem State.writeTcfg_half (s : State) (v : BitVec 4) : (s.writeTcfg v).half = s.half := rfl
@[simp] theorem State.writeTcfg_inbox (s : State) (v : BitVec 4) : (s.writeTcfg v).inbox = s.inbox := rfl
@[simp] theorem State.writeTcfg_hostIndex (s : State) (v : BitVec 4) : (s.writeTcfg v).hostIndex = s.hostIndex := rfl
@[simp] theorem State.writeTcfg_turns (s : State) (v : BitVec 4) : (s.writeTcfg v).turns = s.turns := rfl
@[simp] theorem State.writeTcfg_draws (s : State) (v : BitVec 4) : (s.writeTcfg v).draws = s.draws := rfl
@[simp] theorem State.writeTcfg_params (s : State) (v : BitVec 4) : (s.writeTcfg v).params = s.params := rfl

@[simp] theorem State.writeTop_tcfg (s : State) (v : BitVec 16) : (s.writeTop v).tcfg = s.tcfg := rfl
@[simp] theorem State.writeTop_top (s : State) (v : BitVec 16) : (s.writeTop v).top = .fixed v := rfl
@[simp] theorem State.writeTop_cnt (s : State) (v : BitVec 16) : (s.writeTop v).cnt = s.cnt := rfl
@[simp] theorem State.writeTop_cmp (s : State) (v : BitVec 16) : (s.writeTop v).cmp = s.cmp := rfl
@[simp] theorem State.writeTop_cmpAct (s : State) (v : BitVec 16) : (s.writeTop v).cmpAct = s.cmpAct := rfl
@[simp] theorem State.writeTop_auxDuty (s : State) (v : BitVec 16) : (s.writeTop v).auxDuty = s.auxDuty := rfl
@[simp] theorem State.writeTop_auxAct (s : State) (v : BitVec 16) : (s.writeTop v).auxAct = s.auxAct := rfl
@[simp] theorem State.writeTop_auxEn (s : State) (v : BitVec 16) : (s.writeTop v).auxEn = s.auxEn := rfl
@[simp] theorem State.writeTop_auxPhase (s : State) (v : BitVec 16) : (s.writeTop v).auxPhase = s.auxPhase := rfl
@[simp] theorem State.writeTop_ledLine (s : State) (v : BitVec 16) : (s.writeTop v).ledLine = s.ledLine := rfl
@[simp] theorem State.writeTop_ledEn (s : State) (v : BitVec 16) : (s.writeTop v).ledEn = s.ledEn := rfl
@[simp] theorem State.writeTop_fault (s : State) (v : BitVec 16) : (s.writeTop v).fault = s.fault := rfl
@[simp] theorem State.writeTop_half (s : State) (v : BitVec 16) : (s.writeTop v).half = s.half := rfl
@[simp] theorem State.writeTop_inbox (s : State) (v : BitVec 16) : (s.writeTop v).inbox = s.inbox := rfl
@[simp] theorem State.writeTop_hostIndex (s : State) (v : BitVec 16) : (s.writeTop v).hostIndex = s.hostIndex := rfl
@[simp] theorem State.writeTop_turns (s : State) (v : BitVec 16) : (s.writeTop v).turns = s.turns := rfl
@[simp] theorem State.writeTop_draws (s : State) (v : BitVec 16) : (s.writeTop v).draws = s.draws := rfl
@[simp] theorem State.writeTop_params (s : State) (v : BitVec 16) : (s.writeTop v).params = s.params := rfl

@[simp] theorem State.writeCnt_tcfg (s : State) (v : BitVec 16) : (s.writeCnt v).tcfg = s.tcfg := rfl
@[simp] theorem State.writeCnt_top (s : State) (v : BitVec 16) : (s.writeCnt v).top = s.top := rfl
@[simp] theorem State.writeCnt_cnt (s : State) (v : BitVec 16) : (s.writeCnt v).cnt = v := rfl
@[simp] theorem State.writeCnt_cmp (s : State) (v : BitVec 16) : (s.writeCnt v).cmp = s.cmp := rfl
@[simp] theorem State.writeCnt_cmpAct (s : State) (v : BitVec 16) : (s.writeCnt v).cmpAct = s.cmpAct := rfl
@[simp] theorem State.writeCnt_auxDuty (s : State) (v : BitVec 16) : (s.writeCnt v).auxDuty = s.auxDuty := rfl
@[simp] theorem State.writeCnt_auxAct (s : State) (v : BitVec 16) : (s.writeCnt v).auxAct = s.auxAct := rfl
@[simp] theorem State.writeCnt_auxEn (s : State) (v : BitVec 16) : (s.writeCnt v).auxEn = s.auxEn := rfl
@[simp] theorem State.writeCnt_auxPhase (s : State) (v : BitVec 16) : (s.writeCnt v).auxPhase = s.auxPhase := rfl
@[simp] theorem State.writeCnt_ledLine (s : State) (v : BitVec 16) : (s.writeCnt v).ledLine = s.ledLine := rfl
@[simp] theorem State.writeCnt_ledEn (s : State) (v : BitVec 16) : (s.writeCnt v).ledEn = s.ledEn := rfl
@[simp] theorem State.writeCnt_fault (s : State) (v : BitVec 16) : (s.writeCnt v).fault = s.fault := rfl
@[simp] theorem State.writeCnt_half (s : State) (v : BitVec 16) : (s.writeCnt v).half = s.half := rfl
@[simp] theorem State.writeCnt_inbox (s : State) (v : BitVec 16) : (s.writeCnt v).inbox = s.inbox := rfl
@[simp] theorem State.writeCnt_hostIndex (s : State) (v : BitVec 16) : (s.writeCnt v).hostIndex = s.hostIndex := rfl
@[simp] theorem State.writeCnt_turns (s : State) (v : BitVec 16) : (s.writeCnt v).turns = s.turns := rfl
@[simp] theorem State.writeCnt_draws (s : State) (v : BitVec 16) : (s.writeCnt v).draws = s.draws := rfl
@[simp] theorem State.writeCnt_params (s : State) (v : BitVec 16) : (s.writeCnt v).params = s.params := rfl

@[simp] theorem State.writeCmp_tcfg (s : State) (v : BitVec 16) : (s.writeCmp v).tcfg = s.tcfg := rfl
@[simp] theorem State.writeCmp_top (s : State) (v : BitVec 16) : (s.writeCmp v).top = s.top := rfl
@[simp] theorem State.writeCmp_cnt (s : State) (v : BitVec 16) : (s.writeCmp v).cnt = s.cnt := rfl
@[simp] theorem State.writeCmp_cmp (s : State) (v : BitVec 16) : (s.writeCmp v).cmp = .fixed v := rfl
@[simp] theorem State.writeCmp_cmpAct (s : State) (v : BitVec 16) : (s.writeCmp v).cmpAct = s.cmpAct := rfl
@[simp] theorem State.writeCmp_auxDuty (s : State) (v : BitVec 16) : (s.writeCmp v).auxDuty = s.auxDuty := rfl
@[simp] theorem State.writeCmp_auxAct (s : State) (v : BitVec 16) : (s.writeCmp v).auxAct = s.auxAct := rfl
@[simp] theorem State.writeCmp_auxEn (s : State) (v : BitVec 16) : (s.writeCmp v).auxEn = s.auxEn := rfl
@[simp] theorem State.writeCmp_auxPhase (s : State) (v : BitVec 16) : (s.writeCmp v).auxPhase = s.auxPhase := rfl
@[simp] theorem State.writeCmp_ledLine (s : State) (v : BitVec 16) : (s.writeCmp v).ledLine = s.ledLine := rfl
@[simp] theorem State.writeCmp_ledEn (s : State) (v : BitVec 16) : (s.writeCmp v).ledEn = s.ledEn := rfl
@[simp] theorem State.writeCmp_fault (s : State) (v : BitVec 16) : (s.writeCmp v).fault = s.fault := rfl
@[simp] theorem State.writeCmp_half (s : State) (v : BitVec 16) : (s.writeCmp v).half = s.half := rfl
@[simp] theorem State.writeCmp_inbox (s : State) (v : BitVec 16) : (s.writeCmp v).inbox = s.inbox := rfl
@[simp] theorem State.writeCmp_hostIndex (s : State) (v : BitVec 16) : (s.writeCmp v).hostIndex = s.hostIndex := rfl
@[simp] theorem State.writeCmp_turns (s : State) (v : BitVec 16) : (s.writeCmp v).turns = s.turns := rfl
@[simp] theorem State.writeCmp_draws (s : State) (v : BitVec 16) : (s.writeCmp v).draws = s.draws := rfl
@[simp] theorem State.writeCmp_params (s : State) (v : BitVec 16) : (s.writeCmp v).params = s.params := rfl

@[simp] theorem State.loadCmpAct_tcfg (s : State) : (s.loadCmpAct).tcfg = s.tcfg := rfl
@[simp] theorem State.loadCmpAct_top (s : State) : (s.loadCmpAct).top = s.top := rfl
@[simp] theorem State.loadCmpAct_cnt (s : State) : (s.loadCmpAct).cnt = s.cnt := rfl
@[simp] theorem State.loadCmpAct_cmp (s : State) : (s.loadCmpAct).cmp = s.cmp := rfl
@[simp] theorem State.loadCmpAct_cmpAct (s : State) : (s.loadCmpAct).cmpAct = s.cmp := rfl
@[simp] theorem State.loadCmpAct_auxDuty (s : State) : (s.loadCmpAct).auxDuty = s.auxDuty := rfl
@[simp] theorem State.loadCmpAct_auxAct (s : State) : (s.loadCmpAct).auxAct = s.auxAct := rfl
@[simp] theorem State.loadCmpAct_auxEn (s : State) : (s.loadCmpAct).auxEn = s.auxEn := rfl
@[simp] theorem State.loadCmpAct_auxPhase (s : State) : (s.loadCmpAct).auxPhase = s.auxPhase := rfl
@[simp] theorem State.loadCmpAct_ledLine (s : State) : (s.loadCmpAct).ledLine = s.ledLine := rfl
@[simp] theorem State.loadCmpAct_ledEn (s : State) : (s.loadCmpAct).ledEn = s.ledEn := rfl
@[simp] theorem State.loadCmpAct_fault (s : State) : (s.loadCmpAct).fault = s.fault := rfl
@[simp] theorem State.loadCmpAct_half (s : State) : (s.loadCmpAct).half = s.half := rfl
@[simp] theorem State.loadCmpAct_inbox (s : State) : (s.loadCmpAct).inbox = s.inbox := rfl
@[simp] theorem State.loadCmpAct_hostIndex (s : State) : (s.loadCmpAct).hostIndex = s.hostIndex := rfl
@[simp] theorem State.loadCmpAct_turns (s : State) : (s.loadCmpAct).turns = s.turns := rfl
@[simp] theorem State.loadCmpAct_draws (s : State) : (s.loadCmpAct).draws = s.draws := rfl
@[simp] theorem State.loadCmpAct_params (s : State) : (s.loadCmpAct).params = s.params := rfl

@[simp] theorem State.writeAuxDuty_tcfg (s : State) (ch : Fin 4) (d : BitVec 8) :
    (s.writeAuxDuty ch d).tcfg = s.tcfg := rfl
@[simp] theorem State.writeAuxDuty_top (s : State) (ch : Fin 4) (d : BitVec 8) :
    (s.writeAuxDuty ch d).top = s.top := rfl
@[simp] theorem State.writeAuxDuty_cnt (s : State) (ch : Fin 4) (d : BitVec 8) :
    (s.writeAuxDuty ch d).cnt = s.cnt := rfl
@[simp] theorem State.writeAuxDuty_cmp (s : State) (ch : Fin 4) (d : BitVec 8) :
    (s.writeAuxDuty ch d).cmp = s.cmp := rfl
@[simp] theorem State.writeAuxDuty_cmpAct (s : State) (ch : Fin 4) (d : BitVec 8) :
    (s.writeAuxDuty ch d).cmpAct = s.cmpAct := rfl
@[simp] theorem State.writeAuxDuty_auxDuty (s : State) (ch : Fin 4) (d : BitVec 8) :
    (s.writeAuxDuty ch d).auxDuty = s.auxDuty.set ch (.fixed d) := rfl
@[simp] theorem State.writeAuxDuty_auxAct (s : State) (ch : Fin 4) (d : BitVec 8) :
    (s.writeAuxDuty ch d).auxAct = s.auxAct := rfl
@[simp] theorem State.writeAuxDuty_auxEn (s : State) (ch : Fin 4) (d : BitVec 8) :
    (s.writeAuxDuty ch d).auxEn = s.auxEn := rfl
@[simp] theorem State.writeAuxDuty_auxPhase (s : State) (ch : Fin 4) (d : BitVec 8) :
    (s.writeAuxDuty ch d).auxPhase = s.auxPhase := rfl
@[simp] theorem State.writeAuxDuty_ledLine (s : State) (ch : Fin 4) (d : BitVec 8) :
    (s.writeAuxDuty ch d).ledLine = s.ledLine := rfl
@[simp] theorem State.writeAuxDuty_ledEn (s : State) (ch : Fin 4) (d : BitVec 8) :
    (s.writeAuxDuty ch d).ledEn = s.ledEn := rfl
@[simp] theorem State.writeAuxDuty_fault (s : State) (ch : Fin 4) (d : BitVec 8) :
    (s.writeAuxDuty ch d).fault = s.fault := rfl
@[simp] theorem State.writeAuxDuty_half (s : State) (ch : Fin 4) (d : BitVec 8) :
    (s.writeAuxDuty ch d).half = s.half := rfl
@[simp] theorem State.writeAuxDuty_inbox (s : State) (ch : Fin 4) (d : BitVec 8) :
    (s.writeAuxDuty ch d).inbox = s.inbox := rfl
@[simp] theorem State.writeAuxDuty_hostIndex (s : State) (ch : Fin 4) (d : BitVec 8) :
    (s.writeAuxDuty ch d).hostIndex = s.hostIndex := rfl
@[simp] theorem State.writeAuxDuty_turns (s : State) (ch : Fin 4) (d : BitVec 8) :
    (s.writeAuxDuty ch d).turns = s.turns := rfl
@[simp] theorem State.writeAuxDuty_draws (s : State) (ch : Fin 4) (d : BitVec 8) :
    (s.writeAuxDuty ch d).draws = s.draws := rfl
@[simp] theorem State.writeAuxDuty_params (s : State) (ch : Fin 4) (d : BitVec 8) :
    (s.writeAuxDuty ch d).params = s.params := rfl

@[simp] theorem State.startAux_tcfg (s : State) (ch : Fin 4) (d : BitVec 8) : (s.startAux ch d).tcfg = s.tcfg := rfl
@[simp] theorem State.startAux_top (s : State) (ch : Fin 4) (d : BitVec 8) : (s.startAux ch d).top = s.top := rfl
@[simp] theorem State.startAux_cnt (s : State) (ch : Fin 4) (d : BitVec 8) : (s.startAux ch d).cnt = s.cnt := rfl
@[simp] theorem State.startAux_cmp (s : State) (ch : Fin 4) (d : BitVec 8) : (s.startAux ch d).cmp = s.cmp := rfl
@[simp] theorem State.startAux_cmpAct (s : State) (ch : Fin 4) (d : BitVec 8) :
    (s.startAux ch d).cmpAct = s.cmpAct := rfl
@[simp] theorem State.startAux_auxDuty (s : State) (ch : Fin 4) (d : BitVec 8) :
    (s.startAux ch d).auxDuty = s.auxDuty := rfl
@[simp] theorem State.startAux_auxAct (s : State) (ch : Fin 4) (d : BitVec 8) :
    (s.startAux ch d).auxAct = s.auxAct.set ch (.fixed d) := rfl
@[simp] theorem State.startAux_auxEn (s : State) (ch : Fin 4) (d : BitVec 8) :
    (s.startAux ch d).auxEn = setBit s.auxEn ch := rfl
@[simp] theorem State.startAux_auxPhase (s : State) (ch : Fin 4) (d : BitVec 8) :
    (s.startAux ch d).auxPhase = s.auxPhase := rfl
@[simp] theorem State.startAux_ledLine (s : State) (ch : Fin 4) (d : BitVec 8) :
    (s.startAux ch d).ledLine = s.ledLine := rfl
@[simp] theorem State.startAux_ledEn (s : State) (ch : Fin 4) (d : BitVec 8) :
    (s.startAux ch d).ledEn = s.ledEn := rfl
@[simp] theorem State.startAux_fault (s : State) (ch : Fin 4) (d : BitVec 8) :
    (s.startAux ch d).fault = s.fault := rfl
@[simp] theorem State.startAux_half (s : State) (ch : Fin 4) (d : BitVec 8) : (s.startAux ch d).half = s.half := rfl
@[simp] theorem State.startAux_inbox (s : State) (ch : Fin 4) (d : BitVec 8) :
    (s.startAux ch d).inbox = s.inbox := rfl
@[simp] theorem State.startAux_hostIndex (s : State) (ch : Fin 4) (d : BitVec 8) :
    (s.startAux ch d).hostIndex = s.hostIndex := rfl
@[simp] theorem State.startAux_turns (s : State) (ch : Fin 4) (d : BitVec 8) :
    (s.startAux ch d).turns = s.turns := rfl
@[simp] theorem State.startAux_draws (s : State) (ch : Fin 4) (d : BitVec 8) :
    (s.startAux ch d).draws = s.draws := rfl
@[simp] theorem State.startAux_params (s : State) (ch : Fin 4) (d : BitVec 8) :
    (s.startAux ch d).params = s.params := rfl

@[simp] theorem State.loadAuxAct_tcfg (s : State) : (s.loadAuxAct).tcfg = s.tcfg := rfl
@[simp] theorem State.loadAuxAct_top (s : State) : (s.loadAuxAct).top = s.top := rfl
@[simp] theorem State.loadAuxAct_cnt (s : State) : (s.loadAuxAct).cnt = s.cnt := rfl
@[simp] theorem State.loadAuxAct_cmp (s : State) : (s.loadAuxAct).cmp = s.cmp := rfl
@[simp] theorem State.loadAuxAct_cmpAct (s : State) : (s.loadAuxAct).cmpAct = s.cmpAct := rfl
@[simp] theorem State.loadAuxAct_auxDuty (s : State) : (s.loadAuxAct).auxDuty = s.auxDuty := rfl
@[simp] theorem State.loadAuxAct_auxAct (s : State) : (s.loadAuxAct).auxAct = s.auxDuty := rfl
@[simp] theorem State.loadAuxAct_auxEn (s : State) : (s.loadAuxAct).auxEn = s.auxEn := rfl
@[simp] theorem State.loadAuxAct_auxPhase (s : State) : (s.loadAuxAct).auxPhase = s.auxPhase := rfl
@[simp] theorem State.loadAuxAct_ledLine (s : State) : (s.loadAuxAct).ledLine = s.ledLine := rfl
@[simp] theorem State.loadAuxAct_ledEn (s : State) : (s.loadAuxAct).ledEn = s.ledEn := rfl
@[simp] theorem State.loadAuxAct_fault (s : State) : (s.loadAuxAct).fault = s.fault := rfl
@[simp] theorem State.loadAuxAct_half (s : State) : (s.loadAuxAct).half = s.half := rfl
@[simp] theorem State.loadAuxAct_inbox (s : State) : (s.loadAuxAct).inbox = s.inbox := rfl
@[simp] theorem State.loadAuxAct_hostIndex (s : State) : (s.loadAuxAct).hostIndex = s.hostIndex := rfl
@[simp] theorem State.loadAuxAct_turns (s : State) : (s.loadAuxAct).turns = s.turns := rfl
@[simp] theorem State.loadAuxAct_draws (s : State) : (s.loadAuxAct).draws = s.draws := rfl
@[simp] theorem State.loadAuxAct_params (s : State) : (s.loadAuxAct).params = s.params := rfl

@[simp] theorem State.writeAuxPhase_tcfg (s : State) (v : BitVec 8) : (s.writeAuxPhase v).tcfg = s.tcfg := rfl
@[simp] theorem State.writeAuxPhase_top (s : State) (v : BitVec 8) : (s.writeAuxPhase v).top = s.top := rfl
@[simp] theorem State.writeAuxPhase_cnt (s : State) (v : BitVec 8) : (s.writeAuxPhase v).cnt = s.cnt := rfl
@[simp] theorem State.writeAuxPhase_cmp (s : State) (v : BitVec 8) : (s.writeAuxPhase v).cmp = s.cmp := rfl
@[simp] theorem State.writeAuxPhase_cmpAct (s : State) (v : BitVec 8) : (s.writeAuxPhase v).cmpAct = s.cmpAct := rfl
@[simp] theorem State.writeAuxPhase_auxDuty (s : State) (v : BitVec 8) :
    (s.writeAuxPhase v).auxDuty = s.auxDuty := rfl
@[simp] theorem State.writeAuxPhase_auxAct (s : State) (v : BitVec 8) : (s.writeAuxPhase v).auxAct = s.auxAct := rfl
@[simp] theorem State.writeAuxPhase_auxEn (s : State) (v : BitVec 8) : (s.writeAuxPhase v).auxEn = s.auxEn := rfl
@[simp] theorem State.writeAuxPhase_auxPhase (s : State) (v : BitVec 8) :
    (s.writeAuxPhase v).auxPhase = .fixed v := rfl
@[simp] theorem State.writeAuxPhase_ledLine (s : State) (v : BitVec 8) :
    (s.writeAuxPhase v).ledLine = s.ledLine := rfl
@[simp] theorem State.writeAuxPhase_ledEn (s : State) (v : BitVec 8) : (s.writeAuxPhase v).ledEn = s.ledEn := rfl
@[simp] theorem State.writeAuxPhase_fault (s : State) (v : BitVec 8) : (s.writeAuxPhase v).fault = s.fault := rfl
@[simp] theorem State.writeAuxPhase_half (s : State) (v : BitVec 8) : (s.writeAuxPhase v).half = s.half := rfl
@[simp] theorem State.writeAuxPhase_inbox (s : State) (v : BitVec 8) : (s.writeAuxPhase v).inbox = s.inbox := rfl
@[simp] theorem State.writeAuxPhase_hostIndex (s : State) (v : BitVec 8) :
    (s.writeAuxPhase v).hostIndex = s.hostIndex := rfl
@[simp] theorem State.writeAuxPhase_turns (s : State) (v : BitVec 8) : (s.writeAuxPhase v).turns = s.turns := rfl
@[simp] theorem State.writeAuxPhase_draws (s : State) (v : BitVec 8) : (s.writeAuxPhase v).draws = s.draws := rfl
@[simp] theorem State.writeAuxPhase_params (s : State) (v : BitVec 8) : (s.writeAuxPhase v).params = s.params := rfl

@[simp] theorem State.writeLed_tcfg (s : State) (i : Fin 4) (v : BitVec 3) : (s.writeLed i v).tcfg = s.tcfg := rfl
@[simp] theorem State.writeLed_top (s : State) (i : Fin 4) (v : BitVec 3) : (s.writeLed i v).top = s.top := rfl
@[simp] theorem State.writeLed_cnt (s : State) (i : Fin 4) (v : BitVec 3) : (s.writeLed i v).cnt = s.cnt := rfl
@[simp] theorem State.writeLed_cmp (s : State) (i : Fin 4) (v : BitVec 3) : (s.writeLed i v).cmp = s.cmp := rfl
@[simp] theorem State.writeLed_cmpAct (s : State) (i : Fin 4) (v : BitVec 3) :
    (s.writeLed i v).cmpAct = s.cmpAct := rfl
@[simp] theorem State.writeLed_auxDuty (s : State) (i : Fin 4) (v : BitVec 3) :
    (s.writeLed i v).auxDuty = s.auxDuty := rfl
@[simp] theorem State.writeLed_auxAct (s : State) (i : Fin 4) (v : BitVec 3) :
    (s.writeLed i v).auxAct = s.auxAct := rfl
@[simp] theorem State.writeLed_auxEn (s : State) (i : Fin 4) (v : BitVec 3) : (s.writeLed i v).auxEn = s.auxEn := rfl
@[simp] theorem State.writeLed_auxPhase (s : State) (i : Fin 4) (v : BitVec 3) :
    (s.writeLed i v).auxPhase = s.auxPhase := rfl
@[simp] theorem State.writeLed_ledLine (s : State) (i : Fin 4) (v : BitVec 3) :
    (s.writeLed i v).ledLine = s.ledLine.set i (.fixed v) := rfl
@[simp] theorem State.writeLed_ledEn (s : State) (i : Fin 4) (v : BitVec 3) :
    (s.writeLed i v).ledEn = setBit s.ledEn i := rfl
@[simp] theorem State.writeLed_fault (s : State) (i : Fin 4) (v : BitVec 3) : (s.writeLed i v).fault = s.fault := rfl
@[simp] theorem State.writeLed_half (s : State) (i : Fin 4) (v : BitVec 3) : (s.writeLed i v).half = s.half := rfl
@[simp] theorem State.writeLed_inbox (s : State) (i : Fin 4) (v : BitVec 3) : (s.writeLed i v).inbox = s.inbox := rfl
@[simp] theorem State.writeLed_hostIndex (s : State) (i : Fin 4) (v : BitVec 3) :
    (s.writeLed i v).hostIndex = s.hostIndex := rfl
@[simp] theorem State.writeLed_turns (s : State) (i : Fin 4) (v : BitVec 3) : (s.writeLed i v).turns = s.turns := rfl
@[simp] theorem State.writeLed_draws (s : State) (i : Fin 4) (v : BitVec 3) : (s.writeLed i v).draws = s.draws := rfl
@[simp] theorem State.writeLed_params (s : State) (i : Fin 4) (v : BitVec 3) : (s.writeLed i v).params = s.params := rfl

@[simp] theorem State.startTimer_tcfg (s : State) (periodClocks : Nat) :
    (s.startTimer periodClocks).tcfg = 0b0111 := rfl
@[simp] theorem State.startTimer_top (s : State) (periodClocks : Nat) :
    (s.startTimer periodClocks).top = .fixed (BitVec.ofNat 16 (periodClocks - 1)) := rfl
@[simp] theorem State.startTimer_cnt (s : State) (periodClocks : Nat) : (s.startTimer periodClocks).cnt = 0 := rfl
@[simp] theorem State.startTimer_cmp (s : State) (periodClocks : Nat) :
    (s.startTimer periodClocks).cmp = s.cmp := rfl
@[simp] theorem State.startTimer_cmpAct (s : State) (periodClocks : Nat) :
    (s.startTimer periodClocks).cmpAct = s.cmp := rfl
@[simp] theorem State.startTimer_auxDuty (s : State) (periodClocks : Nat) :
    (s.startTimer periodClocks).auxDuty = s.auxDuty := rfl
@[simp] theorem State.startTimer_auxAct (s : State) (periodClocks : Nat) :
    (s.startTimer periodClocks).auxAct = s.auxAct := rfl
@[simp] theorem State.startTimer_auxEn (s : State) (periodClocks : Nat) :
    (s.startTimer periodClocks).auxEn = s.auxEn := rfl
@[simp] theorem State.startTimer_auxPhase (s : State) (periodClocks : Nat) :
    (s.startTimer periodClocks).auxPhase = s.auxPhase := rfl
@[simp] theorem State.startTimer_ledLine (s : State) (periodClocks : Nat) :
    (s.startTimer periodClocks).ledLine = s.ledLine := rfl
@[simp] theorem State.startTimer_ledEn (s : State) (periodClocks : Nat) :
    (s.startTimer periodClocks).ledEn = s.ledEn := rfl
@[simp] theorem State.startTimer_fault (s : State) (periodClocks : Nat) :
    (s.startTimer periodClocks).fault = s.fault := rfl
@[simp] theorem State.startTimer_half (s : State) (periodClocks : Nat) :
    (s.startTimer periodClocks).half = s.half := rfl
@[simp] theorem State.startTimer_inbox (s : State) (periodClocks : Nat) :
    (s.startTimer periodClocks).inbox = s.inbox := rfl
@[simp] theorem State.startTimer_hostIndex (s : State) (periodClocks : Nat) :
    (s.startTimer periodClocks).hostIndex = s.hostIndex := rfl
@[simp] theorem State.startTimer_turns (s : State) (periodClocks : Nat) :
    (s.startTimer periodClocks).turns = s.turns := rfl
@[simp] theorem State.startTimer_draws (s : State) (periodClocks : Nat) :
    (s.startTimer periodClocks).draws = s.draws := rfl
@[simp] theorem State.startTimer_params (s : State) (periodClocks : Nat) :
    (s.startTimer periodClocks).params = s.params := rfl

@[simp] theorem State.resetBlock_tcfg (s : State) : (s.resetBlock).tcfg = State.reset.tcfg := rfl
@[simp] theorem State.resetBlock_top (s : State) : (s.resetBlock).top = State.reset.top := rfl
@[simp] theorem State.resetBlock_cnt (s : State) : (s.resetBlock).cnt = State.reset.cnt := rfl
@[simp] theorem State.resetBlock_cmp (s : State) : (s.resetBlock).cmp = State.reset.cmp := rfl
@[simp] theorem State.resetBlock_cmpAct (s : State) : (s.resetBlock).cmpAct = State.reset.cmpAct := rfl
@[simp] theorem State.resetBlock_auxDuty (s : State) : (s.resetBlock).auxDuty = State.reset.auxDuty := rfl
@[simp] theorem State.resetBlock_auxAct (s : State) : (s.resetBlock).auxAct = State.reset.auxAct := rfl
@[simp] theorem State.resetBlock_auxEn (s : State) : (s.resetBlock).auxEn = State.reset.auxEn := rfl
@[simp] theorem State.resetBlock_auxPhase (s : State) : (s.resetBlock).auxPhase = State.reset.auxPhase := rfl
@[simp] theorem State.resetBlock_ledLine (s : State) : (s.resetBlock).ledLine = State.reset.ledLine := rfl
@[simp] theorem State.resetBlock_ledEn (s : State) : (s.resetBlock).ledEn = State.reset.ledEn := rfl
@[simp] theorem State.resetBlock_fault (s : State) : (s.resetBlock).fault = State.reset.fault := rfl
@[simp] theorem State.resetBlock_half (s : State) : (s.resetBlock).half = State.reset.half := rfl
@[simp] theorem State.resetBlock_inbox (s : State) : (s.resetBlock).inbox = s.inbox := rfl
@[simp] theorem State.resetBlock_hostIndex (s : State) : (s.resetBlock).hostIndex = s.hostIndex := rfl
@[simp] theorem State.resetBlock_turns (s : State) : (s.resetBlock).turns = s.turns := rfl
@[simp] theorem State.resetBlock_draws (s : State) : (s.resetBlock).draws = s.draws := rfl
@[simp] theorem State.resetBlock_params (s : State) : (s.resetBlock).params = s.params := rfl

@[simp] theorem State.begin_tcfg (s : State) (rest : List Agent) : (s.begin rest).tcfg = s.tcfg := rfl
@[simp] theorem State.begin_top (s : State) (rest : List Agent) : (s.begin rest).top = s.top := rfl
@[simp] theorem State.begin_cnt (s : State) (rest : List Agent) : (s.begin rest).cnt = s.cnt := rfl
@[simp] theorem State.begin_cmp (s : State) (rest : List Agent) : (s.begin rest).cmp = s.cmp := rfl
@[simp] theorem State.begin_cmpAct (s : State) (rest : List Agent) : (s.begin rest).cmpAct = s.cmpAct := rfl
@[simp] theorem State.begin_auxDuty (s : State) (rest : List Agent) : (s.begin rest).auxDuty = s.auxDuty := rfl
@[simp] theorem State.begin_auxAct (s : State) (rest : List Agent) : (s.begin rest).auxAct = s.auxAct := rfl
@[simp] theorem State.begin_auxEn (s : State) (rest : List Agent) : (s.begin rest).auxEn = s.auxEn := rfl
@[simp] theorem State.begin_auxPhase (s : State) (rest : List Agent) : (s.begin rest).auxPhase = s.auxPhase := rfl
@[simp] theorem State.begin_ledLine (s : State) (rest : List Agent) : (s.begin rest).ledLine = s.ledLine := rfl
@[simp] theorem State.begin_ledEn (s : State) (rest : List Agent) : (s.begin rest).ledEn = s.ledEn := rfl
@[simp] theorem State.begin_fault (s : State) (rest : List Agent) : (s.begin rest).fault = s.fault := rfl
@[simp] theorem State.begin_half (s : State) (rest : List Agent) : (s.begin rest).half = s.half := rfl
@[simp] theorem State.begin_inbox (s : State) (rest : List Agent) : (s.begin rest).inbox = s.inbox := rfl
@[simp] theorem State.begin_hostIndex (s : State) (rest : List Agent) : (s.begin rest).hostIndex = s.hostIndex := rfl
@[simp] theorem State.begin_turns (s : State) (rest : List Agent) : (s.begin rest).turns = rest := rfl
@[simp] theorem State.begin_draws (s : State) (rest : List Agent) : (s.begin rest).draws = s.draws + 1 := rfl
@[simp] theorem State.begin_params (s : State) (rest : List Agent) : (s.begin rest).params = s.params := rfl

@[simp] theorem State.arrive_nil (s : State) : s.arrive [] = s := by simp [State.arrive]
@[simp] theorem State.arrive_tcfg (s : State) (events : List PortEvent) :
    (s.arrive events).tcfg = s.tcfg := rfl
@[simp] theorem State.arrive_top (s : State) (events : List PortEvent) :
    (s.arrive events).top = s.top := rfl
@[simp] theorem State.arrive_cnt (s : State) (events : List PortEvent) :
    (s.arrive events).cnt = s.cnt := rfl
@[simp] theorem State.arrive_cmp (s : State) (events : List PortEvent) :
    (s.arrive events).cmp = s.cmp := rfl
@[simp] theorem State.arrive_cmpAct (s : State) (events : List PortEvent) :
    (s.arrive events).cmpAct = s.cmpAct := rfl
@[simp] theorem State.arrive_auxDuty (s : State) (events : List PortEvent) :
    (s.arrive events).auxDuty = s.auxDuty := rfl
@[simp] theorem State.arrive_auxAct (s : State) (events : List PortEvent) :
    (s.arrive events).auxAct = s.auxAct := rfl
@[simp] theorem State.arrive_auxEn (s : State) (events : List PortEvent) :
    (s.arrive events).auxEn = s.auxEn := rfl
@[simp] theorem State.arrive_auxPhase (s : State) (events : List PortEvent) :
    (s.arrive events).auxPhase = s.auxPhase := rfl
@[simp] theorem State.arrive_ledLine (s : State) (events : List PortEvent) :
    (s.arrive events).ledLine = s.ledLine := rfl
@[simp] theorem State.arrive_ledEn (s : State) (events : List PortEvent) :
    (s.arrive events).ledEn = s.ledEn := rfl
@[simp] theorem State.arrive_fault (s : State) (events : List PortEvent) :
    (s.arrive events).fault = s.fault := rfl
@[simp] theorem State.arrive_half (s : State) (events : List PortEvent) :
    (s.arrive events).half = s.half := rfl
@[simp] theorem State.arrive_inbox (s : State) (events : List PortEvent) :
    (s.arrive events).inbox = s.inbox ++ events := rfl
@[simp] theorem State.arrive_hostIndex (s : State) (events : List PortEvent) :
    (s.arrive events).hostIndex = s.hostIndex := rfl
@[simp] theorem State.arrive_turns (s : State) (events : List PortEvent) :
    (s.arrive events).turns = s.turns := rfl
@[simp] theorem State.arrive_draws (s : State) (events : List PortEvent) :
    (s.arrive events).draws = s.draws := rfl
@[simp] theorem State.arrive_params (s : State) (events : List PortEvent) :
    (s.arrive events).params = s.params := rfl

end Sys2Proof.Machine
end

