-- ==== Sys2Proof/Laws/Ops.lean ====
section
/-! SUPPORT. What the shared operations do, said once: status bits, commands, and the steps of the clocks. -/

namespace Sys2Proof.Machine

theorem getLsbD_setBit {n : Nat} (v : BitVec n) (i j : Nat) :
    (setBit v i).getLsbD j = (v.getLsbD j || (decide (i < n) && decide (i = j))) := by
  simp [setBit, BitVec.getLsbD_twoPow]

@[simp] theorem setBit_idem {n : Nat} (v : BitVec n) (i : Nat) : setBit (setBit v i) i = setBit v i := by
  simp [setBit, BitVec.or_assoc]

theorem FaultCode.bit_lt (c : FaultCode) : c.bit < 5 := by cases c <;> decide

@[simp] theorem State.run_raise (s : State) (c : FaultCode) : (s.raise c).run = s.run := rfl
@[simp] theorem State.run_writeCmp (s : State) (v : BitVec 16) : (s.writeCmp v).run = s.run := rfl
@[simp] theorem State.run_writeLed (s : State) (i : Fin 4) (v : BitVec 3) : (s.writeLed i v).run = s.run := rfl
@[simp] theorem State.run_begin (s : State) (rest : List Agent) : (s.begin rest).run = s.run := rfl
@[simp] theorem State.run_startTimer (s : State) (n : Nat) : (s.startTimer n).run = true := by
  simp [State.run]
@[simp] theorem State.run_resetBlock (s : State) : s.resetBlock.run = false := by
  simp [State.run, State.reset]

theorem State.auxEnabled_startAux (s : State) (ch k : Fin 4) (d : BitVec 8) :
    (s.startAux ch d).auxEnabled k = (s.auxEnabled k || decide (ch = k)) := by
  rw [State.auxEnabled, State.startAux_auxEn, getLsbD_setBit]
  simp [State.auxEnabled, Fin.ext_iff]

theorem State.ledEnabled_writeLed (s : State) (i k : Fin 4) (v : BitVec 3) :
    (s.writeLed i v).ledEnabled k = (s.ledEnabled k || decide (i = k)) := by
  rw [State.ledEnabled, State.writeLed_ledEn, getLsbD_setBit]
  simp [State.ledEnabled, Fin.ext_iff]

theorem State.faulted_raise (s : State) (c d : FaultCode) :
    (s.raise c).faulted d = (s.faulted d || decide (c = d)) := by
  have : (c.bit = d.bit) ↔ c = d := by cases c <;> cases d <;> decide
  simp [State.faulted, getLsbD_setBit, c.bit_lt, this]

theorem State.setAux_of_enabled {s : State} {ch : Fin 4} (h : s.auxEnabled ch = true) (d : BitVec 8) :
    s.setAux ch d = s.writeAuxDuty ch d := by simp [State.setAux, h]

theorem State.setAux_of_disabled {s : State} {ch : Fin 4} (h : s.auxEnabled ch = false) (d : BitVec 8) :
    s.setAux ch d = (s.writeAuxDuty ch d).startAux ch d := by simp [State.setAux, h]

theorem colorOfCode_code (c : Color) : colorOfCode c.code = some c := by cases c <;> rfl

theorem colorOfCode_eq_none {col : Nat} : colorOfCode col = none ↔ 4 < col := by
  rcases col with _ | _ | _ | _ | _ | n <;> simp [colorOfCode]

theorem colorOfCode_eq_some {col : Nat} {c : Color} : colorOfCode col = some c ↔ col = c.code := by
  constructor
  · rcases col with _ | _ | _ | _ | _ | n <;> cases c <;> simp [colorOfCode, Color.code]
  · rintro rfl; exact colorOfCode_code c

/-- What a command leaves: a fault bit set and nothing else, or the effect of its own rule. -/
inductive CommandResult (s : State) : Instr → State → Prop where
  | faulted (i : Instr) (c : FaultCode) : CommandResult s i (s.raise c)
  | configured (h : s.run = false) : CommandResult s .cfgp (s.startTimer s.params.period)
  | primary (pct : Nat) (h : s.run = true) (hp : pct ≤ 100) :
      CommandResult s (.setp pct)
        (s.writeCmp (BitVec.ofNat 16 (cmpValue s.params.priRound s.params.period pct)))
  | auxiliary (ch : Fin 4) (pct : Nat) (h : s.run = true) (hp : pct ≤ 100) :
      CommandResult s (.seta ch pct) (s.setAux ch (BitVec.ofNat 8 (auxValue s.params.auxRound pct)))
  | colour (ind : Fin 4) (c : Color) : CommandResult s (.led ind c.code) (s.writeLed ind (pattern c))

/-- Every command answers a next state, and this says which. -/
theorem exec_result (i : Instr) (s : State) : ∃ t, exec i s = .next t ∧ CommandResult s i t := by
  cases i with
  | cfgp =>
    cases h : s.run
    · exact ⟨_, by simp [exec, execCfgp, h], .configured h⟩
    · exact ⟨_, by simp only [exec, execCfgp, h, if_true], .faulted _ .reconfigure⟩
  | setp pct =>
    cases h : s.run
    · exact ⟨_, by simp only [exec, execSetp, h, Bool.not_false, if_true], .faulted _ .notConfigured⟩
    · by_cases hp : 100 < pct
      · exact ⟨_, by simp [exec, execSetp, h, hp], .faulted _ .range⟩
      · exact ⟨_, by simp [exec, execSetp, h, hp], .primary _ h (by omega)⟩
  | seta ch pct =>
    cases h : s.run
    · exact ⟨_, by simp only [exec, execSeta, h, Bool.not_false, if_true], .faulted _ .notConfigured⟩
    · by_cases hp : 100 < pct
      · exact ⟨_, by simp [exec, execSeta, h, hp], .faulted _ .range⟩
      · exact ⟨_, by simp [exec, execSeta, h, hp], .auxiliary _ _ h (by omega)⟩
  | led ind col =>
    cases h : colorOfCode col with
    | none => exact ⟨_, by simp only [exec, execLed, h], .faulted _ .badColor⟩
    | some c =>
      obtain rfl := colorOfCode_eq_some.mp h
      exact ⟨_, by simp only [exec, execLed, h], .colour _ _⟩

/-- If a command answers a next state, it is one of these. -/
theorem CommandResult.of_exec {i : Instr} {s t : State} (h : exec i s = .next t) : CommandResult s i t := by
  obtain ⟨u, hu, hr⟩ := exec_result i s
  rw [h] at hu
  cases hu
  exact hr

/-- What a `CARRIER` step leaves: a wrap, or the counter one higher. -/
theorem carrierStep_cases (s : State) :
    (s.cnt = s.top.read (Config.freeTop s.draws) ∧ carrierStep s = (s.writeCnt 0).loadCmpAct) ∨
    (s.cnt ≠ s.top.read (Config.freeTop s.draws) ∧ carrierStep s = s.writeCnt (s.cnt + 1)) := by
  unfold carrierStep
  split
  · next h => exact .inl ⟨h, rfl⟩
  · next h => exact .inr ⟨h, rfl⟩

/-- What an `AUXCLK` step leaves: a wrap, or the phase one higher. -/
theorem auxclkStep_cases (s : State) :
    (s.phaseNow = 254 ∧ auxclkStep s = (s.writeAuxPhase 0).loadAuxAct) ∨
    (s.phaseNow ≠ 254 ∧ auxclkStep s = s.writeAuxPhase (s.phaseNow + 1)) := by
  unfold auxclkStep
  split
  · next h => exact .inl ⟨h, rfl⟩
  · next h => exact .inr ⟨h, rfl⟩

end Sys2Proof.Machine
end

