-- ==== Sys2Proof/Laws/PerInstr.lean ====
section
/-! SUPPORT. A statement made per instruction: the `OP` field of its encoding (30_encoding.md R71). -/

namespace Sys2Proof.Laws.OpField

/-- The `OP` field of each command (R72 to R75). -/
def opOf : Instr → Nat
  | .cfgp => 0b001
  | .setp _ => 0b010
  | .seta _ _ => 0b011
  | .led _ _ => 0b100

/-- `w[15:13]` of a command's word is its `OP` (R71). -/
def Statement (i : Instr) : Prop := field (encode i) 13 3 = opOf i

theorem cfgp : Statement .cfgp := by unfold Statement; decide

theorem setp (pct : Nat) : Statement (.setp pct) := by
  have h : ∀ v : BitVec 7, field (0b010#3 ++ 0#6 ++ v) 13 3 = 2 := by decide
  exact h (BitVec.ofNat 7 pct)

theorem seta (ch : Fin 4) (pct : Nat) : Statement (.seta ch pct) := by
  have h : ∀ c : BitVec 2, ∀ v : BitVec 7, field (0b011#3 ++ 0#3 ++ c ++ 0#1 ++ v) 13 3 = 3 := by decide
  exact h (BitVec.ofNat 2 ch) (BitVec.ofNat 7 pct)

theorem led (ind : Fin 4) (col : Nat) : Statement (.led ind col) := by
  have h : ∀ c : BitVec 2, ∀ v : BitVec 3, field (0b100#3 ++ 0#3 ++ c ++ 0#5 ++ v) 13 3 = 4 := by decide
  exact h (BitVec.ofNat 2 ind) (BitVec.ofNat 3 col)

end Sys2Proof.Laws.OpField
end

