-- ==== Sys2Proof/Laws/Step.lean ====
section
/-! SUPPORT. What one step can do, said once: whose turn it is, and what that agent's step leaves. -/

namespace Sys2Proof.Machine

theorem pickTurn_enabled {en : Agent → Bool} {l rest : List Agent} {a : Agent}
    (h : pickTurn en l = some (a, rest)) : en a = true := by
  induction l with
  | nil => cases h
  | cons b l ih =>
    unfold pickTurn at h
    split at h
    · next hb => cases h; exact hb
    · exact ih h

theorem State.freeTurn_enabled (s : State) : s.enabled s.freeTurn = true := by
  unfold State.freeTurn
  split
  · assumption
  · rfl

/-- The agent that takes the next step is enabled (R7). -/
theorem State.nextTurn_enabled (s : State) : s.enabled s.nextTurn.1 = true := by
  unfold State.nextTurn
  cases h : pickTurn s.enabled s.turns with
  | none => exact s.freeTurn_enabled
  | some p => exact pickTurn_enabled (rest := p.2) h

theorem State.nextTurn_of_enabled {s : State} {a : Agent} {rest : List Agent}
    (h : s.turns = a :: rest) (ha : s.enabled a = true) : s.nextTurn = (a, rest) := by
  simp [State.nextTurn, h, pickTurn, ha]

/-- How the turn of `HOST` comes to issue the word `w`, and what is left of the inbox and the half word. -/
inductive Arrives (s : State) : Word → List PortEvent → Option Byte → Prop where
  | whole {w : Word} {rest : List PortEvent} (h : s.inbox = .word w :: rest) : Arrives s w rest s.half
  | pair {b0 b : Byte} {rest : List PortEvent} (hh : s.half = some b0) (h : s.inbox = .byte b :: rest) :
      Arrives s (joinBytes s.params.cmdByteOrder b0 b) rest none

/-- What a step can leave, given the state the chosen agent acts in. -/
inductive StepResult (s : State) : Agent → State → Prop where
  | carrier (h : s.run = true) : StepResult s .carrier (carrierStep s)
  | auxclk : StepResult s .auxclk (auxclkStep s)
  | command {w : Word} {rest : List PortEvent} {half : Option Byte} {i : Instr} {t : State}
      (ha : Arrives s w rest half) (hd : decode w = .ok i)
      (h : CommandResult { s with inbox := rest, half := half, hostIndex := s.hostIndex + 1 } i t)
      (he : exec i { s with inbox := rest, half := half, hostIndex := s.hostIndex + 1 } = .next t) :
      StepResult s .host t
  | illegal {w : Word} {rest : List PortEvent} {half : Option Byte} {e : DecodeError}
      (ha : Arrives s w rest half) (hd : decode w = .error e) :
      StepResult s .host
        (State.raise { s with inbox := rest, half := half, hostIndex := s.hostIndex + 1 } .illegal)
  | firstByte {b : Byte} {rest : List PortEvent} (h : s.inbox = .byte b :: rest) (hh : s.half = none) :
      StepResult s .host { s with inbox := rest, half := some b }
  | reset {p : Option Word} {rest : List PortEvent} (h : s.inbox = .reset p :: rest) :
      StepResult s .host (State.resetBlock { s with inbox := rest })

theorem issueWord_result {s : State} {w : Word} {rest : List PortEvent} {half : Option Byte}
    (ha : Arrives s w rest half) :
    ∃ t, issueWord w { s with inbox := rest, half := half } = .next t ∧ StepResult s .host t := by
  unfold issueWord
  cases hd : decode w with
  | error e => exact ⟨_, rfl, .illegal ha hd⟩
  | ok i =>
    obtain ⟨t, ht, hr⟩ :=
      exec_result i { s with inbox := rest, half := half, hostIndex := s.hostIndex + 1 }
    exact ⟨t, ht, .command ha hd hr ht⟩

theorem hostStep_result {s : State} (h : s.inbox ≠ []) :
    ∃ t, hostStep s = .next t ∧ StepResult s .host t := by
  unfold hostStep
  match hi : s.inbox with
  | [] => exact absurd hi h
  | .word w :: rest => exact issueWord_result (.whole hi)
  | .byte b :: rest =>
    cases hb : s.half with
    | none => exact ⟨_, by simp only [takeEvent, takeByte], .firstByte hi hb⟩
    | some b0 =>
      simp only [takeEvent, takeByte]
      exact issueWord_result (.pair hb hi)
  | .reset _ :: rest => exact ⟨_, rfl, .reset hi⟩

/-- Every step of an enabled agent answers a next state, and this says which. -/
theorem agentStep_result {a : Agent} {s : State} (h : s.enabled a = true) :
    ∃ t, agentStep a s = .next t ∧ StepResult s a t := by
  cases a with
  | host => exact hostStep_result (by intro hn; simp [State.enabled, hn] at h)
  | carrier => exact ⟨_, rfl, .carrier h⟩
  | auxclk => exact ⟨_, rfl, .auxclk⟩

theorem State.enabled_begin (s : State) (rest : List Agent) (a : Agent) :
    (s.begin rest).enabled a = s.enabled a := by cases a <;> rfl

/-- Every step answers a next state, and this says which. -/
theorem step_result (s : State) : ∃ t, step s = .next t ∧ StepResult (s.begin s.nextTurn.2) s.nextTurn.1 t :=
  agentStep_result (by rw [State.enabled_begin]; exact s.nextTurn_enabled)

/-- If a step answers a next state, it is one of these. -/
theorem StepResult.of_step {s t : State} (h : step s = .next t) : StepResult (s.begin s.nextTurn.2) s.nextTurn.1 t := by
  obtain ⟨u, hu, hr⟩ := step_result s
  rw [h] at hu
  cases hu
  exact hr

end Sys2Proof.Machine
end

