-- ==== Sys2Proof/Tests/Slice0.lean ====
section
/-! SUPPORT. Small tests with results from spec/95_test_vectors.md and the rules' worked values, and for each
statement with hypotheses a concrete state and operands that meet them. -/

namespace Sys2Proof.Tests

open Sys2Proof.Machine Sys2Proof.Safety

/-! ## Well-formed commands (R83) -/

theorem test_wf_refuses_wide_percent : (Instr.setp 128).wf = false ∧ (Instr.seta 0 128).wf = false := by decide

theorem test_wf_refuses_wide_colour : (Instr.led 0 8).wf = false := by decide

theorem test_wf_accepts_field_limits :
    (Instr.setp 127).wf = true ∧ (Instr.seta 3 127).wf = true ∧ (Instr.led 3 7).wf = true ∧
    Instr.cfgp.wf = true := by decide

/-! ## Decoding: words written out bit by bit from R72 to R75, and section 2.1 of the vectors -/

theorem test_decode_cfgp : decode 0b0010000000000000 = .ok .cfgp := by decide

theorem test_decode_setp : decode 0b0100000000011110 = .ok (.setp 30) := by decide

theorem test_decode_seta : decode 0b0110001100010100 = .ok (.seta 3 20) := by decide

theorem test_decode_led : decode 0b1000001000000011 = .ok (.led 2 3) := by decide

theorem test_decode_out_of_range_operands :
    decode 0x4065 = .ok (.setp 101) ∧ decode 0x407F = .ok (.setp 127) ∧ decode 0x6364 = .ok (.seta 3 100) ∧
    decode 0x8005 = .ok (.led 0 5) ∧ decode 0x8007 = .ok (.led 0 7) := by decide

theorem test_decode_reserved_op :
    decode 0x0000 = .error (.reservedOp 0) ∧ decode 0xA000 = .error (.reservedOp 5) ∧
    decode 0xC000 = .error (.reservedOp 6) ∧ decode 0xFFFF = .error (.reservedOp 7) := by decide

theorem test_decode_reserved_bits :
    decode 0x2001 = .error (.reservedBits "CFGP") ∧ decode 0x3000 = .error (.reservedBits "CFGP") ∧
    decode 0x4080 = .error (.reservedBits "SETP") ∧ decode 0x5000 = .error (.reservedBits "SETP") ∧
    decode 0x6380 = .error (.reservedBits "SETA") ∧ decode 0x6400 = .error (.reservedBits "SETA") ∧
    decode 0x8008 = .error (.reservedBits "LED") ∧ decode 0x8080 = .error (.reservedBits "LED") ∧
    decode 0x8400 = .error (.reservedBits "LED") := by decide

/-- Section 2.1: `0x401E` travels as 1E 40 with LITTLE and as 40 1E with BIG. -/
theorem test_byte_order :
    wordBytes .little 0x401E = [0x1E, 0x40] ∧ wordBytes .big 0x401E = [0x40, 0x1E] ∧
    decodeBytes .little [0x1E, 0x40] = .ok (.setp 30, []) ∧ decodeBytes .little [0x1E] = .error .halfWord := by
  decide

theorem test_decode_table_word :
    decodeTableWord 16 0x2000 = some .cfgp ∧ decodeTableWord 16 0x401E = some (.setp 30) ∧
    decodeTableWord 16 0x6314 = some (.seta 3 20) ∧ decodeTableWord 16 0x8203 = some (.led 2 3) ∧
    decodeTableWord 16 0xFFFF = none := by decide

/-! ## The value functions: sections 2.3 to 2.5, R6 and G3 -/

theorem test_compare_values_640 :
    [0, 1, 20, 30, 50, 99, 100].map (cmpValue .halfUp 640) = [640, 634, 512, 448, 320, 6, 0] := by decide

theorem test_compare_values_65535 :
    [0, 1, 10, 25, 30, 50, 70, 75, 90, 99, 100].map (cmpValue .halfUp 65535)
      = [65535, 64880, 58982, 49151, 45875, 32768, 19661, 16384, 6554, 655, 0] := by decide

theorem test_compare_values_half_even :
    [cmpValue .halfEven 638 25, cmpValue .halfEven 638 75, cmpValue .halfEven 639 50] = [478, 160, 320] := by
  decide

theorem test_native_duty_values :
    [0, 1, 20, 30, 50, 99, 100].map (auxValue .halfUp) = [0, 3, 51, 77, 128, 252, 255] := by decide

/-- Section 2.5, the row p = 50, and p = 90 in the two binary formats. -/
theorem test_native_duty_tie :
    auxValue .halfEven 50 = 128 ∧ auxValue .binary64 50 = 127 ∧ auxValue .binary32 50 = 128 ∧
    auxValue .trunc 50 = 127 ∧ auxValue .binary64 90 = 229 ∧ auxValue .binary32 90 = 230 := by decide

/-! ## Small states -/

/-- What one test looks at in an outcome. -/
def peek {α : Type} (o : Host.Outcome State Fault Refusal) (f : State → α) : Option α :=
  match o with
  | .next t => some (f t)
  | _ => none

/-- A configured timer with a cycle of 4 clocks at its last count, compare value 1 written and 2 in use, the aux
phase at its last value, channel 0 enabled at duty 128 with 255 written. -/
def configured : State :=
  { State.reset with
    tcfg := 0b0111, top := .fixed 3, cnt := 3, cmp := .fixed 1, cmpAct := .fixed 2, auxEn := 0b0001,
    auxPhase := .fixed 254, auxDuty := State.reset.auxDuty.set 0 (.fixed 255),
    auxAct := State.reset.auxAct.set 0 (.fixed 128) }

/-- The state CFGP leaves after reset, with nothing waiting. -/
def running : State := State.reset.startTimer State.reset.params.period

/-- The parameters of the worked examples (R90, R92, R102): `PERIOD = 640`. -/
def params640 : Params := { periodLess1 := 639, priRound := .halfUp, auxRound := .halfUp, cmdByteOrder := .little }

/-- `HOST` has the turn and `e` waits. -/
def waiting (s : State) (e : PortEvent) : State := { s with inbox := [e], turns := [.host] }

/-! ## Commands: section 2.2 and 2.8 of the vectors -/

theorem test_setp_before_cfgp : peek (exec (.setp 120) State.reset) State.fault = some 0b01000 := by decide

theorem test_setp_range : peek (exec (.setp 120) configured) State.fault = some 0b00010 := by decide

theorem test_seta_before_cfgp :
    peek (exec (.seta 3 20) State.reset) (fun t => (t.fault, t.auxEn)) = some (0b01000, 0) := by decide

/-- R110: `SETA 3, 20` gives 51, at once in use on a channel not enabled before. -/
theorem test_seta_first_write :
    peek (exec (.seta 3 20) configured) (fun t => (t.auxDuty[3], t.auxAct[3], t.auxEn))
      = some (.fixed 51, .fixed 51, 0b1001) := by decide

/-- P6: on an enabled channel only the written duty changes. -/
theorem test_seta_enabled_channel :
    peek (exec (.seta 0 100) configured) (fun t => (t.auxDuty[0], t.auxAct[0], t.auxEn))
      = some (.fixed 255, .fixed 128, 0b0001) := by decide

theorem test_cfgp_starts : peek (exec .cfgp State.reset) (fun t => (t.tcfg, t.cnt, t.cmpAct.unspec, t.fault))
    = some (0b0111, 0, true, 0) := by decide

/-- R90, R92, the examples with `PERIOD = 640`. -/
theorem test_period_640 :
    peek (exec .cfgp { State.reset with params := params640 }) State.top = some (.fixed 639) ∧
    peek (exec (.setp 30) { configured with params := params640 }) State.cmp = some (.fixed 448) := by decide

/-- D7, R112: with `AUX_ROUND = BINARY64` the machine writes 127 for 50 percent, and 128 with HALF_UP; with
`PRI_ROUND = HALF_EVEN` and `PERIOD = 638` it writes 478 for 25 percent (R94). -/
theorem test_other_rounding_modes :
    peek (exec (.seta 0 50) { configured with params := { params640 with auxRound := .binary64 } })
      (fun t => t.auxDuty[0]) = some (.fixed 127) ∧
    peek (exec (.seta 0 50) { configured with params := params640 }) (fun t => t.auxDuty[0]) = some (.fixed 128) ∧
    peek (exec (.setp 25) { configured with params := { params640 with periodLess1 := 637, priRound := .halfEven } })
      State.cmp = some (.fixed 478) := by decide

theorem test_cfgp_twice : peek (exec .cfgp configured) (fun t => (t.fault, t.cnt, t.cmpAct))
    = some (0b10000, 3, .fixed 2) := by decide

theorem test_led_blue : peek (exec (.led 2 3) State.reset) (fun t => (t.ledLine[2], t.ledEn, t.fault))
    = some (.fixed 0b001, 0b0100, 0) := by decide

theorem test_led_white_and_invalid :
    peek (exec (.led 3 4) State.reset) (fun t => t.ledLine[3]) = some (.fixed 0b111) ∧
    peek (exec (.led 0 7) State.reset) (fun t => (t.fault, t.ledEn)) = some (0b00100, 0) := by decide

/-- The hardwired bit of TCFG reads 0 whatever is written (R25). -/
theorem test_tcfg_reserved_bit : (State.reset.writeTcfg 0b1111).tcfg = 0b0111 := by decide

/-! ## Clock steps and pins: sections 2.6 and 2.7, P4 and P6 -/

theorem test_carrier_wrap :
    ((carrierStep configured).cnt, (carrierStep configured).cmpAct, priOut (carrierStep configured))
      = (0, .fixed 1, .high) := by decide

theorem test_carrier_counts :
    (carrierStep { configured with cnt := 1 }).cnt = 2 ∧
    priOut { configured with cnt := 1 } = .high ∧ priOut { configured with cnt := 2 } = .low := by decide

theorem test_auxclk_wrap :
    ((auxclkStep configured).auxPhase, (auxclkStep configured).auxAct[0], auxOut (auxclkStep configured) 0)
      = (.fixed 0, .fixed 255, .high) := by decide

theorem test_aux_pin :
    auxOut { configured with auxPhase := .fixed 127 } 0 = .high ∧
    auxOut { configured with auxPhase := .fixed 128 } 0 = .low ∧ auxOut configured 1 = .z := by decide

theorem test_led_lines :
    peek (exec (.led 1 2) State.reset) (fun t => (ledOut t 1 .red, ledOut t 1 .green, ledOut t 1 .blue, ledOut t 0 .red))
      = some (.low, .high, .low, .z) := by decide

/-! ## Steps -/

theorem test_step_runs_placed_word :
    peek (step (State.reset.withFetchWord 16 0x8001)) (fun t => (t.ledLine[0], t.hostIndex))
      = some (.fixed 0b100, 1) := by decide

/-- The word of each row with its operands 0 runs as the first command after reset: CFGP starts the timer, SETP and
SETA fault NOT_CONFIGURED, LED drives its lines. -/
theorem test_step_first_word_of_each_row :
    peek (step (State.reset.withFetchWord 16 0x2000)) (fun t => (t.tcfg, t.fault, t.ledEn)) = some (0b0111, 0, 0) ∧
    peek (step (State.reset.withFetchWord 16 0x4000)) (fun t => (t.tcfg, t.fault, t.ledEn)) = some (0, 0b01000, 0) ∧
    peek (step (State.reset.withFetchWord 16 0x6000)) (fun t => (t.tcfg, t.fault, t.ledEn)) = some (0, 0b01000, 0) ∧
    peek (step (State.reset.withFetchWord 16 0x8000)) (fun t => (t.tcfg, t.fault, t.ledEn)) = some (0, 0, 0b0001) := by
  decide

theorem test_step_illegal_word :
    peek (step (State.reset.withFetchWord 16 0x2001)) (fun t => (t.fault, t.tcfg)) = some (0b00001, 0) := by decide

/-- R52: nothing executes until both bytes of a word have arrived. -/
theorem test_first_byte_executes_nothing :
    peek (step (waiting State.reset (.byte 0x01))) (fun t => (t.half, t.ledEn, t.fault)) = some (some 0x01, 0, 0) := by
  decide

theorem test_second_byte_completes_word :
    peek (step (waiting { State.reset with half := some 0x01 } (.byte 0x81))) (fun t => (t.half, t.ledLine[1]))
      = some (none, .fixed 0b100) := by decide

/-- R52 with BIG: the first byte is the high one. -/
theorem test_second_byte_completes_word_big :
    peek (step (waiting { State.reset with half := some 0x81, params := { params640 with cmdByteOrder := .big } }
      (.byte 0x01))) (fun t => (t.half, t.ledLine[1])) = some (none, .fixed 0b100) := by decide

theorem test_reset_input :
    peek (step (waiting { configured with fault := 0b11111, half := some 0x01 } (.reset (some 0x2000))))
      (fun t => (t.tcfg, t.fault, t.half, t.auxEn)) = some (0, 0, none, 0) := by decide

/-! ## Assembler: R83, R84 -/

theorem test_assemble_led :
    assembleLine ['l', 'e', 'd', ' ', '2', ',', ' ', 'B', 'l', 'u', 'e', ' ', ';', 'x'] = .ok [.led 2 3] := by
  decide

theorem test_assemble_refusals :
    assembleLine ['S', 'E', 'T', 'P', ' ', '1', '2', '8'] = .error .doesNotFit ∧
    assembleLine ['S', 'E', 'T', 'P', ' ', '0', 'x', '7', 'F'] = .ok [.setp 127] ∧
    assembleLine ['F', 'A', 'N', 'S', ' ', '1', ',', '2', ',', '3', ',', '4', ',', '1', '0', '1']
      = .error .outOfRange := by decide

theorem test_boot_words :
    (expandPseudo .boot).map (List.map encode)
      = some [0x2000, 0x4000, 0x6000, 0x6100, 0x6200, 0x6300, 0x8000, 0x8100, 0x8200, 0x8300] := by decide

/-! ## Witnesses: states and operands that meet the statements' hypotheses -/

theorem running_run : running.run = true := State.run_startTimer _ _

/-- DecodeOfEncode: at the largest operands each field admits. -/
theorem test_witness_DecodeOfEncode :
    (Instr.seta 3 127).wf = true ∧ decode (encode (.seta 3 127)) = .ok (.seta 3 127) := by decide

/-- EncodeOfDecode, OpcodeMapSelects, WorkedEncodings. -/
theorem test_witness_EncodeOfDecode : decode 0x8307 = .ok (.led 3 7) ∧ encode (.led 3 7) = 0x8307 := by decide

/-- IllegalWordsFault: each clause of R80. -/
theorem test_witness_IllegalWordsFault :
    decode 0x1FFF = .error (.reservedOp 0) ∧ decode 0x3FFF = .error (.reservedBits "CFGP") ∧
    decode 0x4080 = .error (.reservedBits "SETP") ∧ decode 0x6080 = .error (.reservedBits "SETA") ∧
    decode 0x8008 = .error (.reservedBits "LED") := by decide

/-- PseudoExpansionsInRange: an expansion at the bound, and a refusal just over it. -/
theorem test_witness_PseudoExpansionsInRange :
    expandPseudo (.fans 100 0 0 0 100) = some [.seta 0 100, .seta 1 0, .seta 2 0, .seta 3 0, .setp 100] ∧
    expandPseudo (.fans 100 0 0 0 101) = none := by decide

/-- StepRunsDecodedWord: a legal word and an illegal one. -/
theorem test_witness_StepRunsDecodedWord :
    (waiting State.reset (.word 0x2000)).nextTurn.1 = .host ∧ decode 0x2000 = .ok .cfgp ∧
    (waiting State.reset (.word 0xFFFF)).inbox = [.word 0xFFFF] ∧ decode 0xFFFF = .error (.reservedOp 7) := by
  decide

/-- StepPairsBytes: no half word; the byte that completes a legal word and an illegal one, with LITTLE; with BIG the
same two bytes in the other order. -/
theorem test_witness_StepPairsBytes :
    (waiting State.reset (.byte 0)).nextTurn.1 = .host ∧ State.reset.half = none ∧
    decode ((0x20 : Byte) ++ (0x00 : Byte)) = .ok .cfgp ∧
    decode ((0x00 : Byte) ++ (0x20 : Byte)) = .error (.reservedOp 0) := by decide

/-- StepTakesReset. -/
theorem test_witness_StepTakesReset :
    (waiting configured (.reset none)).nextTurn.1 = .host ∧
    (waiting configured (.reset none)).inbox = [.reset none] := by decide

/-- EnabledAgentMayStep: each agent enabled. -/
theorem test_witness_EnabledAgentMayStep :
    (waiting configured (.word 0)).enabled .host = true ∧ configured.enabled .carrier = true ∧
    configured.enabled .auxclk = true := by decide

/-- StepIsOneEnabledAgent, FaultBitsSticky, OutputEnablesSticky, HeldUnderMarkNeverRead: a step of a state with a
fault bit and enables set. -/
theorem test_witness_steps :
    peek (step { configured with turns := [.carrier], fault := 0b00100, ledEn := 0b0001 })
      (fun t => (t.cnt, t.faulted .badColor, t.auxEnabled 0, t.ledEnabled 0)) = some (0, true, true, true) := by
  decide

/-- IdleUntilCommand: reset itself, with `AUXCLK` to step. -/
theorem test_witness_IdleUntilCommand :
    ∃ t, step { State.reset with turns := [.auxclk] } = .next t ∧ State.reset.inbox = [] ∧
      State.reset.tcfg = 0 ∧ State.reset.auxEn = 0 ∧ State.reset.ledEn = 0 := ⟨_, rfl, by decide⟩

/-- CfgpStartsTimer, SecondCfgpFaults. -/
theorem test_witness_timer : State.reset.run = false ∧ configured.run = true := by decide

/-- SetpWritesCompareValue, SetpFaults, SetaWritesNativeDuty, SetaFaults: both ends of the percents in range, the
first out of range, and an enabled and a disabled channel. -/
theorem test_witness_percents :
    configured.run = true ∧ (0 ≤ 100 ∧ 100 ≤ 100 ∧ 100 < 101) ∧ configured.auxEnabled 0 = true ∧
    configured.auxEnabled 3 = false ∧ State.reset.run = false := by decide

/-- LedInvalidColourFaults: the first invalid code. -/
theorem test_witness_LedInvalidColourFaults : (4 : Nat) < 5 ∧ colorOfCode 5 = none ∧ colorOfCode 4 = some .white := by
  decide

/-- CommandFrames, CommandsIdempotent, CommandsIgnoreFreeValues, PinsOfOtherUnitsUnchanged: each command
answers a next state. -/
theorem test_witness_commands (s : State) :
    (∃ t, exec .cfgp s = .next t) ∧ (∃ t, exec (.setp 30) s = .next t) ∧
    (∃ t, exec (.seta 1 30) s = .next t) ∧ (∃ t, exec (.led 1 1) s = .next t) :=
  ⟨(exec_result _ s).imp fun _ h => h.1, (exec_result _ s).imp fun _ h => h.1,
    (exec_result _ s).imp fun _ h => h.1, (exec_result _ s).imp fun _ h => h.1⟩

/-- FaultPriority: SETP 120 before CFGP is NOT_CONFIGURED and after it RANGE; LED with code 7 is BAD_COLOR. -/
theorem test_witness_FaultPriority :
    peek (issueWord 0x4078 State.reset) State.fault = some 0b01000 ∧
    peek (issueWord 0x4078 configured) State.fault = some 0b00010 ∧
    peek (issueWord 0x2000 configured) State.fault = some 0b10000 ∧
    peek (issueWord 0x8007 configured) State.fault = some 0b00100 := by decide

/-- DutifulWordTakesEffect: a dutiful word of each command. -/
theorem test_witness_DutifulWordTakesEffect :
    meetsDuty State.reset 0x2000 = true ∧ meetsDuty configured 0x4064 = true ∧
    meetsDuty configured 0x6364 = true ∧ meetsDuty State.reset 0x8304 = true ∧
    meetsDuty configured 0x4065 = false := by decide

/-- DutifulHostStaysClean: a clean state whose next step issues a dutiful word. -/
theorem test_witness_DutifulHostStaysClean :
    Clean (waiting State.reset (.word 0x2000)) ∧
    (∀ w, issuedWord (waiting State.reset (.word 0x2000)) = some w →
      meetsDuty (waiting State.reset (.word 0x2000)) w = true) ∧
    ∃ t, step (waiting State.reset (.word 0x2000)) = .next t := by
  have h : issuedWord (waiting State.reset (.word 0x2000)) = some 0x2000 := by decide
  refine ⟨rfl, fun w hw => ?_, (step_result _).imp fun _ h => h.1⟩
  rw [h] at hw
  cases hw
  decide

/-- CompareValueLaws, CompareValueModes, EffectivePrimaryDuty: a period at a tie, and the two ends. -/
theorem test_witness_periods :
    (639 * 50 % 100 = 50 ∧ 639 % 2 = 1 ∧ cmpValue .halfUp 639 50 + cmpValue .halfUp 639 50 = 640) ∧
    (638 * 25 % 100 = 50 ∧ 638 % 4 = 2 ∧ cmpValue .halfUp 638 25 + cmpValue .halfUp 638 75 = 639) ∧
    (640 % 4 = 0 ∧ cmpValue .halfUp 640 30 + cmpValue .halfUp 640 70 = 640) ∧ cmpValue .halfUp 1 100 = 0 := by
  decide

/-- PrimaryPinRule, PrimaryHighTime: a driven pin with a fixed and with an `UNSPEC` compare value; a pin not
driven. -/
theorem test_witness_PrimaryPin :
    (configured.oe = true ∧ configured.cmpAct = ⟨2, false⟩) ∧
    ({ configured with cmpAct := .unspecified }.oe = true) ∧ State.reset.oe = false := by decide

/-- AuxiliaryPinRule, AuxiliaryHighTime. -/
theorem test_witness_AuxiliaryPin :
    configured.auxEnabled 0 = true ∧ configured.auxPhase.unspec = false ∧ configured.auxAct[0] = ⟨128, false⟩ ∧
    configured.auxEnabled 1 = false := by decide

/-- LedLineRule, EnabledLedShowsColour's premise on the enable. -/
theorem test_witness_LedLine :
    (State.reset.writeLed 2 0b001).ledEnabled 2 = true ∧ (State.reset.writeLed 2 0b001).ledLine[2].unspec = false ∧
    State.reset.ledEnabled 2 = false := by decide

/-- ResetMeetsInvariant is the witness of Inv; here a running timer meets the primary unit's (CarrierCycleLength,
SetpReachesPinAtWrap, FairRunReachesWrap). -/
theorem running_inv : PrimaryInv running where
  tcfgLegal := .inr rfl
  stoppedCnt := fun _ => rfl
  stoppedCmp := fun h => absurd running_run (by rw [h]; decide)
  runningTop := fun _ => ⟨rfl, by
    have h1 := State.reset.params.period_pos
    have h2 := State.reset.params.period_le
    show (BitVec.ofNat 16 (State.reset.params.period - 1)).toNat = State.reset.params.period - 1
    rw [BitVec.toNat_ofNat]
    omega⟩
  runningCnt := fun _ => Nat.zero_le _
  cmpBound := fun h => by cases h
  cmpActBound := fun h => by cases h

/-- CarrierStepRule: its turn, at `TOP` and below it, and a stopped timer that meets the invariant. -/
theorem test_witness_CarrierStepRule :
    ({ configured with turns := [.carrier] } : State).nextTurn.1 = .carrier ∧ configured.top = ⟨3, false⟩ ∧
    configured.cnt = 3 ∧ ({ configured with cnt := 2, turns := [.carrier] } : State).nextTurn.1 = .carrier ∧
    State.reset.run = false := by decide

/-- PrimaryPinRule: the clause on a compare value of `PERIOD`. -/
theorem test_witness_PrimaryPinRule_end :
    PrimaryInv { running with cmpAct := .fixed (BitVec.ofNat 16 running.params.period) } ∧ running.oe = true ∧
    running.params.period ≤ (BitVec.ofNat 16 running.params.period).toNat := by
  have h := running_inv
  have hp : (BitVec.ofNat 16 running.params.period).toNat = running.params.period := by
    have := running.params.period_le
    rw [BitVec.toNat_ofNat]
    omega
  refine ⟨⟨h.1, h.2, h.3, h.4, h.5, h.6, fun _ => ?_⟩, ?_, Nat.le_of_eq hp.symm⟩
  · exact Nat.le_of_eq hp
  · simp [State.oe, running]

/-- NativeDutyLaws, NativeDutyTies, CompareValueModes: a tie and no tie, and where two modes differ. -/
theorem test_witness_modes :
    ((0 : Nat) < 100 ∧ 100 ≤ 100) ∧ 255 * 50 % 100 = 50 ∧ 255 * 0 % 100 ≠ 50 ∧
    cmpValue .halfEven 638 25 ≠ cmpValue .halfUp 638 25 ∧ 50 ≤ 638 * 75 % 100 := by decide

/-- CarrierCycleLength, SetpReachesPinAtWrap. -/
theorem test_witness_CarrierCycleLength :
    PrimaryInv running ∧ running.run = true ∧ running.cnt = 0 ∧ running.cnt.toNat + 0 ≤ running.params.period - 1 :=
  ⟨running_inv, running_run, rfl, Nat.zero_le _⟩

/-- AuxclkStepRule: its turn, at the last phase and before it. -/
theorem test_witness_AuxclkStepRule :
    { configured with turns := [.auxclk] }.nextTurn.1 = .auxclk ∧ configured.auxPhase = ⟨254, false⟩ ∧
    { configured with auxPhase := .fixed 253 }.auxPhase.held ≠ 254 := by decide

/-- AuxclkDrawsUnspecPhase. -/
theorem test_witness_AuxclkDrawsUnspecPhase : State.reset.auxPhase.unspec = true := by decide

/-- AuxCycleLength, SetaReachesPin. -/
theorem test_witness_SetaReachesPin :
    configured.run = true ∧ configured.auxPhase.unspec = false ∧ configured.auxPhase.held.toNat ≤ 254 ∧
    configured.auxEnabled 0 = true ∧ configured.auxEnabled 2 = false := by decide

/-- StepKeepsInvariant, EnabledLedShowsColour: a state that meets every invariant with an indicator enabled, and
its step. -/
theorem test_witness_StepKeepsInvariant :
    Inv (State.reset.writeLed 2 0b001) ∧ (∃ t, step (State.reset.writeLed 2 0b001) = .next t) ∧
    (State.reset.writeLed 2 0b001).ledEnabled 2 = true := by
  refine ⟨⟨⟨.inl rfl, fun _ => rfl, fun _ => rfl, fun h => ?_, fun h => ?_, fun h => ?_, fun h => ?_⟩,
    ⟨fun h => ?_, fun k h => ?_, fun k h => ?_⟩, fun k h => ?_⟩, (step_result _).imp fun _ h => h.1, by decide⟩
  · exact absurd h (by decide)
  · exact absurd h (by decide)
  · cases h
  · cases h
  · cases h
  · exact absurd h (by revert k; decide)
  · exact absurd h (by revert k; decide)
  · have hk : k = 2 := by revert k; decide
    subst hk
    exact ⟨rfl, .inr (.inr (.inr (.inl rfl)))⟩

/-- CommandsCommute. -/
theorem test_witness_CommandsCommute :
    Instr.seta 0 10 ≠ .cfgp ∧ Instr.seta 1 20 ≠ .cfgp ∧ sameTarget (.seta 0 10) (.seta 1 20) = false ∧
    sameTarget (.seta 1 10) (.seta 1 20) = true := by decide

/-! ### A fair run: the host, which goes on for ever, and the two clocks take turns (FairRunReachesWrap) -/

/-- The agent of step `n`. -/
def turnOf (n : Nat) : Agent := if n % 3 = 0 then .host else if n % 3 = 1 then .carrier else .auxclk

/-- Before each of its turns the host's next word arrives: `LED 0, RED`. -/
def cameTo (n : Nat) : List PortEvent := if n % 3 = 0 then [.word 0x8001] else []

/-- The states of the run. -/
def fairRun : Nat → State
  | 0 => running
  | n + 1 =>
    if n % 3 = 0 then
      State.writeLed { (fairRun n).begin [] with hostIndex := (fairRun n).hostIndex + 1 } 0 0b100
    else if n % 3 = 1 then carrierStep ((fairRun n).begin []) else auxclkStep ((fairRun n).begin [])

theorem fairRun_keeps (n : Nat) : (fairRun n).run = true ∧ (fairRun n).inbox = [] := by
  induction n with
  | zero => exact ⟨running_run, rfl⟩
  | succ n ih =>
    unfold fairRun
    split
    · exact ih
    · split
      · rcases carrierStep_cases ((fairRun n).begin []) with ⟨_, h⟩ | ⟨_, h⟩ <;> rw [h] <;> exact ih
      · rcases auxclkStep_cases ((fairRun n).begin []) with ⟨_, h⟩ | ⟨_, h⟩ <;> rw [h] <;> exact ih

/-- The host's step on `LED 0, RED` where nothing else waits. -/
theorem host_led {s : State} (h : s.inbox = []) :
    agentStep .host ((s.arrive [.word 0x8001]).begin [])
      = .next (State.writeLed { s.begin [] with hostIndex := s.hostIndex + 1 } 0 0b100) := by
  have hd : decode 0x8001 = .ok (.led 0 1) := by decide
  simp only [agentStep, hostStep, State.begin_inbox, State.arrive_inbox, h, List.nil_append, takeEvent, issueWord, hd]
  simp only [exec, execLed, colorOfCode, pattern]
  rw [← h]
  rfl

theorem test_witness_FairRunReachesWrap :
    IsRun fairRun cameTo turnOf ∧ Fair fairRun turnOf ∧ PrimaryInv (fairRun 0) ∧ ∀ n, (fairRun n).run = true := by
  refine ⟨fun n => ?_, fun a _ n => ?_, running_inv, fun n => (fairRun_keeps n).1⟩
  · rcases (by omega : n % 3 = 0 ∨ n % 3 = 1 ∨ n % 3 = 2) with h | h | h
    · simp only [turnOf, cameTo, fairRun, h, if_true]
      exact ⟨by simp [State.enabled], [], host_led (fairRun_keeps n).2⟩
    · simp only [turnOf, cameTo, fairRun, h, if_true, if_neg (by decide : ¬ (1 = 0)), State.arrive_nil]
      exact ⟨(fairRun_keeps n).1, [], rfl⟩
    · simp only [turnOf, cameTo, fairRun, h, if_neg (by decide : ¬ (2 = 0)), if_neg (by decide : ¬ (2 = 1)),
        State.arrive_nil]
      exact ⟨rfl, [], rfl⟩
  · cases a with
    | host => exact ⟨3 * n, by omega, by simp [turnOf]⟩
    | carrier => exact ⟨3 * n + 1, by omega, by unfold turnOf; rw [if_neg (by omega), if_pos (by omega)]⟩
    | auxclk => exact ⟨3 * n + 2, by omega, by unfold turnOf; rw [if_neg (by omega), if_neg (by omega)]⟩

/-- EveryInterleavingIsARun: nothing waits after reset. ParametersNeverChange: both ends of PERIOD's range. -/
theorem test_witness_EveryInterleavingIsARun :
    State.reset.inbox = [] ∧ ({ params640 with periodLess1 := 0 } : Params).period = 1 ∧
    ({ params640 with periodLess1 := 65534 } : Params).period = 65535 := by decide

end Sys2Proof.Tests
end

section
/-! The scope of the block (00_scope.md): the agents and their interleavings, the parameters, fair runs. First the
frames of commands and clock steps, then what a run can do, then the obligations of this family. -/

namespace Sys2Proof.Machine

/-! ## What commands and clock steps leave unchanged -/

theorem State.setAux_eq (s : State) (ch : Fin 4) (d : BitVec 8) :
    s.setAux ch d =
      { s with
        auxDuty := s.auxDuty.set ch (.fixed d)
        auxAct := if s.auxEnabled ch then s.auxAct else s.auxAct.set ch (.fixed d)
        auxEn := if s.auxEnabled ch then s.auxEn else setBit s.auxEn ch } := by
  cases h : s.auxEnabled ch
  · exact State.setAux_of_disabled h d
  · exact State.setAux_of_enabled h d

/-- No command writes the transport's half word, the inputs, the model's bookkeeping or the parameters. -/
theorem CommandResult.frame {s t : State} {i : Instr} (h : CommandResult s i t) :
    t.half = s.half ∧ t.inbox = s.inbox ∧ t.hostIndex = s.hostIndex ∧ t.turns = s.turns ∧ t.draws = s.draws ∧
      t.params = s.params := by
  cases h with
  | auxiliary => simp [State.setAux_eq]
  | faulted => simp
  | configured => simp
  | primary => simp
  | colour => simp

/-- On a running timer no command writes `CNT` or `TOP` (R91, R92, R110, R125). -/
theorem CommandResult.counter_frame {s t : State} {i : Instr} (h : CommandResult s i t) (hs : s.run = true) :
    t.cnt = s.cnt ∧ t.top = s.top := by
  cases h with
  | configured hstop => simp [hs] at hstop
  | auxiliary => simp [State.setAux_eq]
  | faulted => simp
  | primary => simp
  | colour => simp

@[simp] theorem carrierStep_top (s : State) : (carrierStep s).top = s.top := by
  rcases carrierStep_cases s with ⟨_, h⟩ | ⟨_, h⟩ <;> simp [h]

@[simp] theorem carrierStep_inbox (s : State) : (carrierStep s).inbox = s.inbox := by
  rcases carrierStep_cases s with ⟨_, h⟩ | ⟨_, h⟩ <;> simp [h]

@[simp] theorem carrierStep_params (s : State) : (carrierStep s).params = s.params := by
  rcases carrierStep_cases s with ⟨_, h⟩ | ⟨_, h⟩ <;> simp [h]

@[simp] theorem auxclkStep_cnt (s : State) : (auxclkStep s).cnt = s.cnt := by
  rcases auxclkStep_cases s with ⟨_, h⟩ | ⟨_, h⟩ <;> simp [h]

@[simp] theorem auxclkStep_top (s : State) : (auxclkStep s).top = s.top := by
  rcases auxclkStep_cases s with ⟨_, h⟩ | ⟨_, h⟩ <;> simp [h]

@[simp] theorem auxclkStep_inbox (s : State) : (auxclkStep s).inbox = s.inbox := by
  rcases auxclkStep_cases s with ⟨_, h⟩ | ⟨_, h⟩ <;> simp [h]

@[simp] theorem auxclkStep_params (s : State) : (auxclkStep s).params = s.params := by
  rcases auxclkStep_cases s with ⟨_, h⟩ | ⟨_, h⟩ <;> simp [h]

/-! ## Steps -/

/-- No step changes a parameter (R5, R42). -/
theorem StepResult.params_eq {s t : State} {a : Agent} (h : StepResult s a t) : t.params = s.params := by
  cases h with
  | carrier => exact carrierStep_params s
  | auxclk => exact auxclkStep_params s
  | command _ _ hc _ =>
    obtain ⟨-, -, -, -, -, hparams⟩ := hc.frame
    exact hparams
  | illegal => rfl
  | firstByte => rfl
  | reset => rfl

/-- While the timer stays configured, only `CARRIER` writes `CNT`, and nothing writes `TOP`: a reset would stop the
timer, and CFGP faults (R91, R170). -/
theorem StepResult.counter_frame {s t : State} {a : Agent} (h : StepResult s a t) (hs : s.run = true)
    (ht : t.run = true) : t.top = s.top ∧ (a ≠ .carrier → t.cnt = s.cnt) := by
  cases h with
  | carrier => exact ⟨carrierStep_top s, fun ha => absurd rfl ha⟩
  | auxclk => exact ⟨auxclkStep_top s, fun _ => auxclkStep_cnt s⟩
  | command _ _ hc _ =>
    obtain ⟨hcnt, htop⟩ := hc.counter_frame hs
    exact ⟨htop, fun _ => hcnt⟩
  | illegal => exact ⟨rfl, fun _ => rfl⟩
  | firstByte => exact ⟨rfl, fun _ => rfl⟩
  | reset => simp at ht

/-- If an enabled agent's step answers a next state, it is one of these. -/
theorem StepResult.of_agentStep {s t : State} {a : Agent} (ha : s.enabled a = true)
    (h : agentStep a s = .next t) : StepResult s a t := by
  obtain ⟨u, hu, hr⟩ := agentStep_result ha
  rw [h] at hu
  cases hu
  exact hr

theorem step_of_nextTurn {s : State} {a : Agent} (h : s.nextTurn.1 = a) :
    step s = agentStep a (s.begin s.nextTurn.2) := by rw [step, h]

/-! ## The command port -/

theorem hostStep_word {s : State} {w : Word} {rest : List PortEvent} (h : s.inbox = .word w :: rest) :
    hostStep s = issueWord w { s with inbox := rest } := by simp only [hostStep, h, takeEvent]

theorem issueWord_of_ok {w : Word} {i : Instr} (h : decode w = .ok i) (s : State) :
    issueWord w s = exec i { s with hostIndex := s.hostIndex + 1 } := by simp only [issueWord, h]

theorem issueWord_of_error {w : Word} {e : DecodeError} (h : decode w = .error e) (s : State) :
    issueWord w s = .next (State.raise { s with hostIndex := s.hostIndex + 1 } .illegal) := by
  simp only [issueWord, h]

/-- Issuing a word takes nothing from the inbox: that `HOST`'s turn has done (R50; log 8). -/
theorem inbox_of_issueWord {s t : State} {w : Word} (h : issueWord w s = .next t) : t.inbox = s.inbox := by
  cases hd : decode w with
  | ok i =>
    rw [issueWord_of_ok hd] at h
    obtain ⟨-, hinbox, -⟩ := (CommandResult.of_exec h).frame
    exact hinbox
  | error e =>
    rw [issueWord_of_error hd] at h
    cases h
    rfl

/-- Where nothing waits, a word that arrives for `HOST`'s turn is issued at once. -/
theorem agentStep_host_arrive_word {s : State} (h : s.inbox = []) (w : Word) (turns : List Agent) :
    agentStep .host ((s.arrive [.word w]).begin turns) = issueWord w (s.begin turns) := by
  have harr : ((s.arrive [.word w]).begin turns).inbox = [.word w] := by simp [h]
  have hrest : { (s.arrive [.word w]).begin turns with inbox := [] } = s.begin turns := by
    rw [← h]
    rfl
  rw [agentStep, hostStep_word harr, hrest]

/-- Settles O9. -/
theorem stepRunsDecodedWord : Obligations.StepRunsDecodedWord := by
  unfold Obligations.StepRunsDecodedWord
  intro s w rest hturn hinbox
  have hstep : step s = issueWord w { s.begin s.nextTurn.2 with inbox := rest } :=
    (step_of_nextTurn hturn).trans (hostStep_word hinbox)
  exact ⟨fun i hi => hstep.trans (issueWord_of_ok hi _), fun e he => hstep.trans (issueWord_of_error he _)⟩

/-- Settles O12. -/
theorem enabledAgentMayStep : Obligations.EnabledAgentMayStep := by
  unfold Obligations.EnabledAgentMayStep
  intro s
  refine ⟨by simp [State.enabled], Iff.rfl, rfl, fun a rest ha => ?_⟩
  have ha' : State.enabled { s with turns := a :: rest } a = true := by cases a <;> exact ha
  rw [step, State.nextTurn_of_enabled rfl ha']
  rfl

/-- Settles O13: the agent whose turn it is, which is an enabled one. -/
theorem stepIsOneEnabledAgent : Obligations.StepIsOneEnabledAgent := by
  unfold Obligations.StepIsOneEnabledAgent
  exact fun s t h => ⟨s.nextTurn.1, s.nextTurn.2, s.nextTurn_enabled, h⟩

/-- Every number in 1..65535 is the `PERIOD` of some choice of the parameters (R5). -/
theorem exists_params_period {n : Nat} (h1 : 1 ≤ n) (h2 : n ≤ 65535) : ∃ p : Params, p.period = n :=
  ⟨{ Config.params with periodLess1 := ⟨n - 1, by omega⟩ }, Nat.sub_add_cancel h1⟩

/-- Settles O59. -/
theorem parametersNeverChange : Obligations.ParametersNeverChange := by
  unfold Obligations.ParametersNeverChange
  refine ⟨⟨rfl, rfl, rfl⟩, fun p => ⟨p.period_pos, p.period_le⟩, fun n => exists_params_period,
    fun i s t h => ?_, fun s t h => ?_⟩
  · obtain ⟨-, -, -, -, -, hparams⟩ := (CommandResult.of_exec h).frame
    exact hparams
  · exact (StepResult.of_step h).params_eq

end Sys2Proof.Machine

namespace Sys2Proof.Safety

open Sys2Proof.Machine

/-! ## A fair run wraps again and again -/

/-- The carrier counter is within a cycle whose last value is written: what of `PrimaryInv` the wrap of R96 needs. -/
def Counting (s : State) : Prop := s.top.unspec = false ∧ s.cnt.toNat ≤ s.top.held.toNat

/-- How many `CARRIER` steps are left before the one that wraps. -/
def clocksLeft (s : State) : Nat := s.top.held.toNat - s.cnt.toNat

/-- Step `m` of the run is a `CARRIER` step that wraps and loads `CMP` (R96). -/
def WrapsAt (r : Nat → State) (who : Nat → Agent) (m : Nat) : Prop :=
  who m = .carrier ∧ (r (m + 1)).cnt = 0 ∧ (r (m + 1)).cmpAct = (r m).cmp

theorem PrimaryInv.counting {s : State} (h : PrimaryInv s) (hs : s.run = true) : Counting s :=
  ⟨(h.runningTop hs).1, h.runningCnt hs⟩

theorem Counting.congr {s t : State} (h : Counting s) (hcnt : t.cnt = s.cnt) (htop : t.top = s.top) : Counting t := by
  unfold Counting
  rwa [hcnt, htop]

theorem clocksLeft_congr {s t : State} (hcnt : t.cnt = s.cnt) (htop : t.top = s.top) :
    clocksLeft t = clocksLeft s := by rw [clocksLeft, hcnt, htop, clocksLeft]

/-- A counter within its cycle wraps in a `CARRIER` step, or counts and comes closer to the wrap. -/
theorem Counting.wraps_or_counts {s : State} (h : Counting s) :
    Counting (carrierStep s) ∧
      (((carrierStep s).cnt = 0 ∧ (carrierStep s).cmpAct = s.cmp) ∨ clocksLeft (carrierStep s) < clocksLeft s) := by
  obtain ⟨hfixed, hle⟩ := h
  have hread : s.top.read (Config.freeTop s.draws) = s.top.held := by simp [Elem.read, hfixed]
  rcases carrierStep_cases s with ⟨_, hstep⟩ | ⟨hne, hstep⟩
  · rw [hstep]
    exact ⟨⟨hfixed, Nat.zero_le _⟩, .inl ⟨rfl, rfl⟩⟩
  · have hlt : s.cnt.toNat < s.top.held.toNat := by
      rw [hread] at hne
      exact Nat.lt_of_le_of_ne hle fun he => hne (BitVec.eq_of_toNat_eq he)
    have hcnt : (s.cnt + 1).toNat = s.cnt.toNat + 1 := by bv_omega
    rw [hstep]
    refine ⟨⟨hfixed, ?_⟩, .inr ?_⟩
    · simp only [State.writeCnt_cnt, State.writeCnt_top]; omega
    · simp only [clocksLeft, State.writeCnt_cnt, State.writeCnt_top]; omega

section
variable {r : Nat → State} {came : Nat → List PortEvent} {who : Nat → Agent} (hrun : IsRun r came who)
include hrun

/-- What step `n` of a run can leave. -/
theorem IsRun.result (n : Nat) : ∃ rest, StepResult (((r n).arrive (came n)).begin rest) (who n) (r (n + 1)) := by
  obtain ⟨hen, rest, hstep⟩ := hrun n
  exact ⟨rest, .of_agentStep (by rwa [State.enabled_begin]) hstep⟩

theorem IsRun.carrier_step {n : Nat} (hn : who n = .carrier) (hc : Counting (r n)) :
    Counting (r (n + 1)) ∧ (WrapsAt r who n ∨ clocksLeft (r (n + 1)) < clocksLeft (r n)) := by
  obtain ⟨-, rest, hstep⟩ := hrun n
  rw [hn, agentStep] at hstep
  injection hstep with hnext
  have hc' : Counting (((r n).arrive (came n)).begin rest) := hc
  obtain ⟨hkeep, hcase⟩ := hc'.wraps_or_counts
  rw [hnext] at hkeep hcase
  exact ⟨hkeep, hcase.imp_left fun hwrap => ⟨hn, hwrap⟩⟩

variable (hon : ∀ n, (r n).run = true)
include hon

theorem IsRun.counter_frame {n : Nat} (hn : who n ≠ .carrier) :
    (r (n + 1)).cnt = (r n).cnt ∧ (r (n + 1)).top = (r n).top := by
  obtain ⟨rest, hres⟩ := hrun.result n
  obtain ⟨htop, hcnt⟩ := hres.counter_frame (hon n) (hon (n + 1))
  exact ⟨hcnt hn, htop⟩

theorem IsRun.counting (h0 : Counting (r 0)) (n : Nat) : Counting (r n) := by
  induction n with
  | zero => exact h0
  | succ n ih =>
    by_cases hn : who n = .carrier
    · exact (hrun.carrier_step hn ih).1
    · obtain ⟨hcnt, htop⟩ := hrun.counter_frame hon hn
      exact ih.congr hcnt htop

/-- Up to a `CARRIER` step the run wraps or comes closer to the wrap. -/
theorem IsRun.wraps_or_closer (h0 : Counting (r 0)) {n m : Nat} (hnm : n ≤ m) (hm : who m = .carrier) :
    ∃ k, n ≤ k ∧ (WrapsAt r who k ∨ clocksLeft (r k) < clocksLeft (r n)) := by
  have hcarrier : ∀ n, who n = .carrier →
      ∃ k, n ≤ k ∧ (WrapsAt r who k ∨ clocksLeft (r k) < clocksLeft (r n)) := fun n hn =>
    (hrun.carrier_step hn (hrun.counting hon h0 n)).2.elim (fun hw => ⟨n, le_rfl, .inl hw⟩)
      fun hlt => ⟨n + 1, n.le_succ, .inr hlt⟩
  induction hnm using Nat.decreasingInduction with
  | self => exact hcarrier m hm
  | of_succ n _ ih =>
    by_cases hn : who n = .carrier
    · exact hcarrier n hn
    · obtain ⟨hcnt, htop⟩ := hrun.counter_frame hon hn
      obtain ⟨k, hk, hcase⟩ := ih
      rw [clocksLeft_congr hcnt htop] at hcase
      exact ⟨k, by omega, hcase⟩

/-- Where `CARRIER` steps come again and again, so do wraps, by induction on the clocks left. -/
theorem IsRun.exists_wrap (h0 : Counting (r 0)) (hoften : ∀ n, ∃ m, n ≤ m ∧ who m = .carrier) (n : Nat) :
    ∃ m, n ≤ m ∧ WrapsAt r who m := by
  induction hd : clocksLeft (r n) using Nat.strong_induction_on generalizing n with
  | _ d ih =>
    obtain ⟨m, hnm, hm⟩ := hoften n
    obtain ⟨k, hk, hwrap | hlt⟩ := hrun.wraps_or_closer hon h0 hnm hm
    · exact ⟨k, hk, hwrap⟩
    · obtain ⟨j, hj, hwrap⟩ := ih _ (hd ▸ hlt) k rfl
      exact ⟨j, hk.trans hj, hwrap⟩

end

/-- Settles O58: fairness gives `CARRIER` steps again and again, since a configured timer keeps `CARRIER` enabled. -/
theorem fairRunReachesWrap : Obligations.FairRunReachesWrap := by
  unfold Obligations.FairRunReachesWrap
  intro r came who hrun hfair hinv hon
  exact hrun.exists_wrap hon (hinv.counting (hon 0)) (hfair .carrier ⟨0, fun n _ => hon n⟩)

/-! ## Every interleaving is a run -/

/-- The agent that takes a step `want` is to take: `CARRIER` of a stopped timer passes to `AUXCLK` (R96, R114). -/
def scheduledAgent (want : Agent) (s : State) : Agent :=
  match want with
  | .host => .host
  | .carrier => if s.run then .carrier else .auxclk
  | .auxclk => .auxclk

/-- What arrives before that step: the host's word, if it is the host's turn. -/
def scheduledEvents (want : Agent) (w : Word) : List PortEvent :=
  match want with
  | .host => [.word w]
  | .carrier | .auxclk => []

/-- The next state of an outcome, or `s` where there is none. -/
def nextOr (s : State) : Host.Outcome State Fault Refusal → State
  | .next t => t
  | .fault _ => s
  | .refused _ => s

/-- The run from `s` in which `want n` is to take step `n` and the host's word there is `w n`. -/
def scheduledRun (s : State) (want : Nat → Agent) (w : Nat → Word) : Nat → State
  | 0 => s
  | n + 1 =>
    let u := scheduledRun s want w n
    nextOr u (agentStep (scheduledAgent (want n) u) ((u.arrive (scheduledEvents (want n) (w n))).begin []))

theorem scheduledAgent_carrier {s : State} (h : s.run = true) : scheduledAgent .carrier s = .carrier := by
  simp [scheduledAgent, h]

theorem scheduledAgent_carrier_stopped {s : State} (h : s.run = false) : scheduledAgent .carrier s = .auxclk := by
  simp [scheduledAgent, h]

theorem scheduledAgent_enabled (want : Agent) (w : Word) (s : State) :
    (s.arrive (scheduledEvents want w)).enabled (scheduledAgent want s) = true := by
  cases want with
  | host => simp [scheduledAgent, scheduledEvents, State.enabled]
  | auxclk => rfl
  | carrier =>
    cases hs : s.run
    · rw [scheduledAgent_carrier_stopped hs]
      rfl
    · rw [scheduledAgent_carrier hs]
      exact hs

/-- A scheduled step answers a next state and takes all that has arrived. -/
theorem exists_scheduled_step (want : Agent) (w : Word) {s : State} (h : s.inbox = []) :
    ∃ t, agentStep (scheduledAgent want s) ((s.arrive (scheduledEvents want w)).begin []) = .next t ∧
      t.inbox = [] := by
  obtain ⟨t, ht, -⟩ := agentStep_result
    ((State.enabled_begin _ [] _).trans (scheduledAgent_enabled want w s))
  refine ⟨t, ht, ?_⟩
  cases want with
  | host =>
    rw [scheduledAgent, scheduledEvents, agentStep_host_arrive_word h] at ht
    simpa [h] using inbox_of_issueWord ht
  | auxclk =>
    cases ht
    simp [scheduledEvents, h]
  | carrier =>
    cases hs : s.run
    · rw [scheduledAgent_carrier_stopped hs] at ht
      cases ht
      simp [scheduledEvents, h]
    · rw [scheduledAgent_carrier hs] at ht
      cases ht
      simp [scheduledEvents, h]

section
variable {s : State} (want : Nat → Agent) (w : Nat → Word) (h : s.inbox = [])
include h

theorem scheduledRun_inbox (n : Nat) : (scheduledRun s want w n).inbox = [] := by
  induction n with
  | zero => exact h
  | succ n ih =>
    obtain ⟨t, ht, hinbox⟩ := exists_scheduled_step (want n) (w n) ih
    rw [scheduledRun, ht]
    exact hinbox

theorem scheduledRun_succ (n : Nat) :
    agentStep (scheduledAgent (want n) (scheduledRun s want w n))
      (((scheduledRun s want w n).arrive (scheduledEvents (want n) (w n))).begin [])
      = .next (scheduledRun s want w (n + 1)) := by
  obtain ⟨t, ht, -⟩ := exists_scheduled_step (want n) (w n) (scheduledRun_inbox want w h n)
  rw [scheduledRun, ht]
  rfl

end

/-- Settles O60: each word arrives just before the turn of `HOST` that issues it. -/
theorem everyInterleavingIsARun : Obligations.EveryInterleavingIsARun := by
  unfold Obligations.EveryInterleavingIsARun
  intro s want w h
  have hnext := scheduledRun_succ want w h
  have hempty := scheduledRun_inbox want w h
  refine ⟨scheduledRun s want w, fun n => scheduledEvents (want n) (w n),
    fun n => scheduledAgent (want n) (scheduledRun s want w n), rfl,
    fun n => ⟨scheduledAgent_enabled _ _ _, [], hnext n⟩,
    fun n => ⟨hempty n, fun hn => ?_, fun hn hon => ?_, fun hn => ?_⟩⟩
  · have hstep := hnext n
    rw [hn, scheduledAgent, scheduledEvents, agentStep_host_arrive_word (hempty n)] at hstep
    exact ⟨by simp only [hn, scheduledAgent], [], hstep⟩
  · simpa only [hn] using scheduledAgent_carrier hon
  · simp only [hn, scheduledAgent]

end Sys2Proof.Safety
end

section
/-! The state of the block (10_state.md): what a read sees, what each command and each clock leaves unchanged, the
bits that stay set until reset, the reset values, the invariants of R40, and the values held under `UNSPEC` marks. -/

namespace Sys2Proof.Machine

/-! ## Reading an element (R21) -/

theorem Elem.read_of_fixed {w : Nat} {e : Elem w} (h : e.unspec = false) (d : BitVec w) : e.read d = e.held := by
  simp [Elem.read, h]

theorem Elem.read_of_unspec {w : Nat} {e : Elem w} (h : e.unspec = true) (d : BitVec w) : e.read d = d := by
  simp [Elem.read, h]

/-- An `AUXCLK` step reads a phase within 0..254, if a written phase is: a draw always is (R33). -/
theorem State.phaseNow_le {s : State} (h : s.auxPhase.unspec = false → s.auxPhase.held.toNat ≤ 254) :
    s.phaseNow.toNat ≤ 254 := by
  unfold State.phaseNow
  cases hu : s.auxPhase.unspec
  · rw [Elem.read_of_fixed hu]
    exact h hu
  · have := (Config.freePhase s.draws).isLt
    rw [Elem.read_of_unspec hu, BitVec.toNat_ofNat]
    omega

/-! ## The effect of SETA on one channel (R110) -/

theorem State.auxEnabled_setAux (s : State) (ch k : Fin 4) (d : BitVec 8) :
    (s.setAux ch d).auxEnabled k = (s.auxEnabled k || decide (ch = k)) := by
  cases h : s.auxEnabled ch
  · rw [State.setAux_of_disabled h, State.auxEnabled_startAux]
    rfl
  · rw [State.setAux_of_enabled h]
    change s.auxEnabled k = _
    by_cases hk : ch = k
    · simp [← hk, h]
    · simp [hk]

theorem State.setAux_auxDuty_self (s : State) (ch : Fin 4) (d : BitVec 8) :
    (s.setAux ch d).auxDuty[ch] = .fixed d := by simp [State.setAux_eq]

theorem State.setAux_auxAct_self_of_disabled {s : State} {ch : Fin 4} (h : s.auxEnabled ch = false) (d : BitVec 8) :
    (s.setAux ch d).auxAct[ch] = .fixed d := by simp [State.setAux_eq, h]

theorem State.setAux_auxAct_of_enabled {s : State} {ch : Fin 4} (h : s.auxEnabled ch = true) (d : BitVec 8) :
    (s.setAux ch d).auxAct = s.auxAct := by simp [State.setAux_eq, h]

/-- SETA leaves every other channel as it is (R38). -/
theorem State.setAux_other_channel (s : State) {ch k : Fin 4} (hk : k ≠ ch) (d : BitVec 8) :
    (s.setAux ch d).auxDuty[k] = s.auxDuty[k] ∧ (s.setAux ch d).auxAct[k] = s.auxAct[k] ∧
      (s.setAux ch d).auxEnabled k = s.auxEnabled k := by
  have hval : ch.val ≠ k.val := fun h => hk (Fin.ext h.symm)
  refine ⟨by simp [State.setAux_eq, Vector.getElem_set_ne, hval], ?_, ?_⟩
  · rw [State.setAux_eq]
    dsimp only
    split
    · rfl
    · exact Vector.getElem_set_ne _ _ hval
  · simp [State.auxEnabled_setAux, hk.symm]

/-- LED leaves every other indicator as it is (R38). -/
theorem State.writeLed_other_indicator (s : State) {i k : Fin 4} (hk : k ≠ i) (v : BitVec 3) :
    (s.writeLed i v).ledLine[k] = s.ledLine[k] ∧ (s.writeLed i v).ledEnabled k = s.ledEnabled k := by
  have hval : i.val ≠ k.val := fun h => hk (Fin.ext h.symm)
  exact ⟨by simp [Vector.getElem_set_ne, hval], by simp [State.ledEnabled_writeLed, hk.symm]⟩

/-! ## Frames -/

/-- CFGP writes the primary unit only (R38, R90). -/
theorem CommandResult.cfgp_frame {s t : State} (h : CommandResult s .cfgp t) :
    t = { s with tcfg := t.tcfg, top := t.top, cnt := t.cnt, cmpAct := t.cmpAct, fault := t.fault } := by
  cases h with
  | faulted => rfl
  | configured => rfl

/-- SETP writes `CMP` only (R38, R92). -/
theorem CommandResult.setp_frame {s t : State} {pct : Nat} (h : CommandResult s (.setp pct) t) :
    t = { s with cmp := t.cmp, fault := t.fault } := by
  cases h with
  | faulted => rfl
  | primary => rfl

/-- SETA writes its own channel only (R38, R110). -/
theorem CommandResult.seta_frame {s t : State} {ch : Fin 4} {pct : Nat} (h : CommandResult s (.seta ch pct) t) :
    t = { s with auxDuty := t.auxDuty, auxAct := t.auxAct, auxEn := t.auxEn, fault := t.fault } ∧
      ∀ k : Fin 4, k ≠ ch → t.auxDuty[k] = s.auxDuty[k] ∧ t.auxAct[k] = s.auxAct[k] ∧
        t.auxEnabled k = s.auxEnabled k := by
  cases h with
  | faulted => exact ⟨rfl, fun _ _ => ⟨rfl, rfl, rfl⟩⟩
  | auxiliary =>
    refine ⟨?_, fun k hk => s.setAux_other_channel hk _⟩
    rw [State.setAux_eq]

/-- LED writes its own indicator only (R38, R125). -/
theorem CommandResult.led_frame {s t : State} {ind : Fin 4} {col : Nat} (h : CommandResult s (.led ind col) t) :
    t = { s with ledLine := t.ledLine, ledEn := t.ledEn, fault := t.fault } ∧
      ∀ k : Fin 4, k ≠ ind → t.ledLine[k] = s.ledLine[k] ∧ t.ledEnabled k = s.ledEnabled k := by
  cases h with
  | faulted => exact ⟨rfl, fun _ _ => ⟨rfl, rfl⟩⟩
  | colour ind c => exact ⟨rfl, fun k hk => s.writeLed_other_indicator hk _⟩

theorem carrierStep_frame (s : State) :
    carrierStep s = { s with cnt := (carrierStep s).cnt, cmpAct := (carrierStep s).cmpAct } := by
  rcases carrierStep_cases s with ⟨_, h⟩ | ⟨_, h⟩ <;> rw [h] <;> rfl

theorem carrierStep_cmpAct (s : State) : (carrierStep s).cmpAct = s.cmp ∨ (carrierStep s).cmpAct = s.cmpAct := by
  rcases carrierStep_cases s with ⟨_, h⟩ | ⟨_, h⟩
  · exact .inl (by rw [h]; rfl)
  · exact .inr (by rw [h]; rfl)

theorem auxclkStep_frame (s : State) :
    auxclkStep s = { s with auxPhase := (auxclkStep s).auxPhase, auxAct := (auxclkStep s).auxAct } := by
  rcases auxclkStep_cases s with ⟨_, h⟩ | ⟨_, h⟩ <;> rw [h] <;> rfl

/-- Settles O25, command by command. -/
theorem commandFrames : Obligations.CommandFrames := by
  unfold Obligations.CommandFrames
  exact fun s t => ⟨fun h => (CommandResult.of_exec h).cfgp_frame, fun _ h => (CommandResult.of_exec h).setp_frame,
    fun _ _ h => (CommandResult.of_exec h).seta_frame, fun _ _ h => (CommandResult.of_exec h).led_frame⟩

/-- Settles O26. -/
theorem clockFrames : Obligations.ClockFrames := by
  unfold Obligations.ClockFrames
  exact fun s => ⟨carrierStep_frame s, auxclkStep_frame s⟩

/-! ## The pins -/

theorem Pin.ofBool_eq_low_or_high (b : Bool) : Pin.ofBool b = .low ∨ Pin.ofBool b = .high := by
  cases b
  · exact .inl rfl
  · exact .inr rfl

theorem priOut_of_undriven {s : State} (h : s.oe = false) : priOut s = .z := by simp [priOut, h]

theorem auxOut_of_disabled {s : State} {ch : Fin 4} (h : s.auxEnabled ch = false) : auxOut s ch = .z := by
  simp [auxOut, h]

theorem auxOut_of_enabled {s : State} {ch : Fin 4} (h : s.auxEnabled ch = true) :
    auxOut s ch = Pin.ofBool ((s.auxPhase.read (BitVec.ofNat 8 (Config.freePhaseAtPin s.draws ch).val)).ult
      (s.auxAct[ch].read (Config.freeAuxAct s.draws ch))) := by simp [auxOut, h]

theorem ledOut_of_disabled {s : State} {i : Fin 4} (h : s.ledEnabled i = false) (c : LedColour) :
    ledOut s i c = .z := by simp [ledOut, h]

theorem ledOut_of_fixed {s : State} {i : Fin 4} (h : s.ledEnabled i = true) (hu : s.ledLine[i].unspec = false)
    (c : LedColour) : ledOut s i c = Pin.ofBool (s.ledLine[i].held.getLsbD (LedColour.bit c)) := by
  rw [ledOut, Elem.read_of_fixed hu]
  simp [h]

theorem auxOut_congr {s t : State} {k : Fin 4} (hen : t.auxEnabled k = s.auxEnabled k)
    (hphase : t.auxPhase = s.auxPhase) (hact : t.auxAct[k] = s.auxAct[k]) (hdraws : t.draws = s.draws) :
    auxOut t k = auxOut s k := by simp only [auxOut, hen, hphase, hact, hdraws]

theorem ledOut_congr {s t : State} {k : Fin 4} (hen : t.ledEnabled k = s.ledEnabled k)
    (hline : t.ledLine[k] = s.ledLine[k]) (hdraws : t.draws = s.draws) (c : LedColour) :
    ledOut t k c = ledOut s k c := by simp only [ledOut, hen, hline, hdraws]

/-- Settles O43: each command's frame holds all that the pins of the other units read. -/
theorem pinsOfOtherUnitsUnchanged : Obligations.PinsOfOtherUnitsUnchanged := by
  unfold Obligations.PinsOfOtherUnitsUnchanged
  intro i s t h
  have hr := CommandResult.of_exec h
  cases i with
  | cfgp =>
    rw [hr.cfgp_frame]
    exact ⟨fun hi => absurd rfl hi, fun _ _ => rfl, fun _ _ _ => rfl⟩
  | setp pct =>
    rw [hr.setp_frame]
    exact ⟨fun _ => rfl, fun _ _ => rfl, fun _ _ _ => rfl⟩
  | seta ch pct =>
    obtain ⟨hframe, hother⟩ := hr.seta_frame
    refine ⟨fun _ => by rw [hframe]; rfl, fun k hk => ?_, fun k c _ => by rw [hframe]; rfl⟩
    obtain ⟨-, hact, hen⟩ := hother k fun hkc => hk pct (by rw [hkc])
    exact auxOut_congr hen (by rw [hframe]) hact (by rw [hframe])
  | led ind col =>
    obtain ⟨hframe, hother⟩ := hr.led_frame
    refine ⟨fun _ => by rw [hframe]; rfl, fun k _ => by rw [hframe]; rfl, fun k c hk => ?_⟩
    obtain ⟨hline, hen⟩ := hother k fun hki => hk col (by rw [hki])
    exact ledOut_congr hen hline (by rw [hframe]) c

/-- Settles O40. -/
theorem auxiliaryPinRule : Obligations.AuxiliaryPinRule := by
  unfold Obligations.AuxiliaryPinRule
  intro s ch
  refine ⟨auxOut_of_disabled, fun hen hphase hact => ?_, fun hen => ?_⟩
  · rw [auxOut_of_enabled hen, Elem.read_of_fixed hphase, Elem.read_of_fixed hact, BitVec.ult]
    exact ⟨fun hlt => by rw [decide_eq_true hlt]; rfl, fun hle => by rw [decide_eq_false (Nat.not_lt.mpr hle)]; rfl⟩
  · rw [auxOut_of_enabled hen]
    exact Pin.ofBool_eq_low_or_high _

/-- Settles O42. -/
theorem ledLineRule : Obligations.LedLineRule := by
  unfold Obligations.LedLineRule
  exact fun s i => ⟨ledOut_of_disabled, fun hen hu =>
    ⟨ledOut_of_fixed hen hu .red, ledOut_of_fixed hen hu .green, ledOut_of_fixed hen hu .blue⟩⟩

/-! ## The bits that stay set until reset -/

theorem FaultCode.code_eq (c : FaultCode) : c.code = c.bit + 1 := by cases c <;> rfl

/-- Settles O27. -/
theorem faultBits : Obligations.FaultBits := by
  unfold Obligations.FaultBits
  refine ⟨⟨rfl, rfl, rfl, rfl, rfl⟩, fun s c => ⟨rfl, fun k _ => ?_⟩⟩
  rw [State.raise_fault, getLsbD_setBit, c.code_eq]
  simp [c.bit_lt, eq_comm]

/-- Every status bit set in `s` is set in `t`: the fault bits (R36), the output enables (R25, R32, R35) and
`TCFG.RUN` (R25). -/
structure StatusKept (s t : State) : Prop where
  fault : ∀ c, s.faulted c = true → t.faulted c = true
  aux : ∀ k, s.auxEnabled k = true → t.auxEnabled k = true
  led : ∀ k, s.ledEnabled k = true → t.ledEnabled k = true
  oe : s.oe = true → t.oe = true
  run : s.run = true → t.run = true

theorem StatusKept.raise (s : State) (c : FaultCode) : StatusKept s (s.raise c) :=
  ⟨fun d hd => by simp [State.faulted_raise, hd], fun _ => id, fun _ => id, id, id⟩

theorem StatusKept.setAux (s : State) (ch : Fin 4) (d : BitVec 8) : StatusKept s (s.setAux ch d) := by
  have hen : ∀ k, s.auxEnabled k = true → (s.setAux ch d).auxEnabled k = true := fun k hk => by
    simp [State.auxEnabled_setAux, hk]
  rw [State.setAux_eq] at hen ⊢
  exact ⟨fun _ => id, hen, fun _ => id, id, id⟩

theorem StatusKept.carrierStep (s : State) : StatusKept s (carrierStep s) := by
  rw [carrierStep_frame]
  exact ⟨fun _ => id, fun _ => id, fun _ => id, id, id⟩

theorem StatusKept.auxclkStep (s : State) : StatusKept s (auxclkStep s) := by
  rw [auxclkStep_frame]
  exact ⟨fun _ => id, fun _ => id, fun _ => id, id, id⟩

/-- No command clears a status bit. -/
theorem CommandResult.statusKept {s t : State} {i : Instr} (h : CommandResult s i t) : StatusKept s t := by
  cases h with
  | faulted i c => exact .raise s c
  | configured =>
    exact ⟨fun _ => id, fun _ => id, fun _ => id, fun _ => by simp [State.oe], fun _ => State.run_startTimer _ _⟩
  | primary => exact ⟨fun _ => id, fun _ => id, fun _ => id, id, id⟩
  | auxiliary => exact .setAux s _ _
  | colour ind c =>
    exact ⟨fun _ => id, fun _ => id, fun k hk => by simp [State.ledEnabled_writeLed, hk], id, id⟩

/-- The port's own fields bear on no status bit. -/
theorem StatusKept.of_port {s t : State} {inbox : List PortEvent} {half : Option Byte} {index : Nat}
    (h : StatusKept { s with inbox := inbox, half := half, hostIndex := index } t) : StatusKept s t :=
  ⟨h.fault, h.aux, h.led, h.oe, h.run⟩

/-- Only the reset input clears a status bit (R140, R170). -/
theorem StepResult.statusKept_or_reset {s t : State} {a : Agent} (h : StepResult s a t) :
    StatusKept s t ∨ (a = .host ∧ ∃ p rest, s.inbox = .reset p :: rest) := by
  cases h with
  | carrier => exact .inl (.carrierStep s)
  | auxclk => exact .inl (.auxclkStep s)
  | command _ _ hc _ => exact .inl hc.statusKept.of_port
  | illegal => exact .inl (StatusKept.raise _ .illegal).of_port
  | firstByte => exact .inl ⟨fun _ => id, fun _ => id, fun _ => id, id, id⟩
  | reset hi => exact .inr ⟨rfl, _, _, hi⟩

/-- Settles O29: no step but the reset input's clears a status bit. -/
theorem faultBitsSticky : Obligations.FaultBitsSticky := by
  unfold Obligations.FaultBitsSticky
  exact fun s t c h hc => (StepResult.of_step h).statusKept_or_reset.imp_left fun hk => hk.fault c hc

/-- Settles O30: no step but the reset input's clears a status bit. -/
theorem outputEnablesSticky : Obligations.OutputEnablesSticky := by
  unfold Obligations.OutputEnablesSticky
  exact fun s t h => (StepResult.of_step h).statusKept_or_reset.imp_left fun hk => ⟨hk.aux, hk.led, hk.oe, hk.run⟩

/-! ## An `AUXCLK` step and the phase's bound -/

/-- An `AUXCLK` step writes a phase within 0..254 (R33, R114). -/
theorem auxclkStep_phase {s : State} (h : s.auxPhase.unspec = false → s.auxPhase.held.toNat ≤ 254) :
    (auxclkStep s).auxPhase.unspec = false ∧ (auxclkStep s).auxPhase.held.toNat ≤ 254 := by
  have hle := s.phaseNow_le h
  rcases auxclkStep_cases s with ⟨_, hstep⟩ | ⟨hne, hstep⟩
  · rw [hstep]
    exact ⟨rfl, Nat.zero_le _⟩
  · rw [hstep]
    refine ⟨rfl, ?_⟩
    simp only [State.writeAuxPhase_auxPhase, Elem.fixed_held]
    bv_omega

/-- A step that does not wrap leaves a phase above 0, since the phase it read is at most 254. -/
theorem auxclkStep_load {s : State} (h : s.auxPhase.unspec = false → s.auxPhase.held.toNat ≤ 254) :
    ((auxclkStep s).auxPhase.held = 0 → (auxclkStep s).auxAct = s.auxDuty) ∧
    ((auxclkStep s).auxPhase.held ≠ 0 → (auxclkStep s).auxAct = s.auxAct) := by
  have hle := s.phaseNow_le h
  rcases auxclkStep_cases s with ⟨_, hstep⟩ | ⟨hne, hstep⟩
  · rw [hstep]
    exact ⟨fun _ => rfl, fun h0 => absurd rfl h0⟩
  · rw [hstep]
    refine ⟨fun h0 => ?_, fun _ => rfl⟩
    simp only [State.writeAuxPhase_auxPhase, Elem.fixed_held] at h0
    bv_omega

/-- Settles O48: a draw is within 0..254, as a written phase would be. -/
theorem auxclkDrawsUnspecPhase : Obligations.AuxclkDrawsUnspecPhase := by
  unfold Obligations.AuxclkDrawsUnspecPhase
  intro s hu
  have hbound : s.auxPhase.unspec = false → s.auxPhase.held.toNat ≤ 254 := by simp [hu]
  obtain ⟨hfixed, hle⟩ := auxclkStep_phase hbound
  exact ⟨hfixed, hle, auxclkStep_load hbound⟩

/-! ## The command port, event by event -/

theorem hostStep_nil {s : State} (h : s.inbox = []) : hostStep s = .next s := by simp only [hostStep, h]

theorem hostStep_cons {s : State} {e : PortEvent} {rest : List PortEvent} (h : s.inbox = e :: rest) :
    hostStep s = takeEvent e { s with inbox := rest } := by simp only [hostStep, h]

theorem takeByte_first {s : State} (h : s.half = none) (b : Byte) :
    takeByte b s = .next { s with half := some b } := by simp only [takeByte, h]

theorem takeByte_second {s : State} {b0 : Byte} (h : s.half = some b0) (b : Byte) :
    takeByte b s = issueWord (joinBytes s.params.cmdByteOrder b0 b) { s with half := none } := by
  simp only [takeByte, h]

/-! ## The reset values (R39) -/

theorem State.auxEnabled_resetBlock (s : State) (k : Fin 4) : s.resetBlock.auxEnabled k = false := by
  simp [State.auxEnabled, State.reset]

theorem State.ledEnabled_resetBlock (s : State) (k : Fin 4) : s.resetBlock.ledEnabled k = false := by
  simp [State.ledEnabled, State.reset]

theorem State.unspec_resetBlock (s : State) (k : Fin 4) :
    s.resetBlock.auxDuty[k].unspec = true ∧ s.resetBlock.auxAct[k].unspec = true ∧
      s.resetBlock.ledLine[k].unspec = true :=
  (by decide : ∀ k : Fin 4, State.reset.auxDuty[k].unspec = true ∧ State.reset.auxAct[k].unspec = true ∧
    State.reset.ledLine[k].unspec = true) k

theorem State.phaseNow_resetBlock_le (s : State) : s.resetBlock.phaseNow.toNat ≤ 254 :=
  State.phaseNow_le (by simp [State.reset])

theorem priOut_resetBlock (s : State) : priOut s.resetBlock = .z :=
  priOut_of_undriven (by simp [State.oe, State.reset])

theorem auxOut_resetBlock (s : State) (k : Fin 4) : auxOut s.resetBlock k = .z :=
  auxOut_of_disabled (s.auxEnabled_resetBlock k)

theorem ledOut_resetBlock (s : State) (i : Fin 4) (c : LedColour) : ledOut s.resetBlock i c = .z :=
  ledOut_of_disabled (s.ledEnabled_resetBlock i) c

theorem State.resetBlock_reset : State.reset.resetBlock = State.reset := rfl

/-- Settles O15: the state after reset is what the reset input makes of it. -/
theorem resetState : Obligations.ResetState := by
  unfold Obligations.ResetState
  rw [← State.resetBlock_reset]
  exact ⟨rfl, rfl, rfl, rfl, rfl, State.unspec_resetBlock _, rfl, rfl, State.phaseNow_resetBlock_le _, rfl, rfl,
    priOut_resetBlock _, auxOut_resetBlock _, ledOut_resetBlock _⟩

theorem step_of_reset {s : State} {p : Option Word} {rest : List PortEvent} (hturn : s.nextTurn.1 = .host)
    (hinbox : s.inbox = .reset p :: rest) :
    step s = .next (State.resetBlock { s.begin s.nextTurn.2 with inbox := rest }) :=
  (step_of_nextTurn hturn).trans (hostStep_cons (s := s.begin s.nextTurn.2) hinbox)

/-- Settles O11. -/
theorem stepTakesReset : Obligations.StepTakesReset := by
  unfold Obligations.StepTakesReset
  intro s p rest hturn hinbox
  exact ⟨_, step_of_reset hturn hinbox, rfl, rfl, rfl, rfl, rfl, rfl, rfl, rfl, rfl, rfl,
    State.phaseNow_resetBlock_le _, State.unspec_resetBlock _, priOut_resetBlock _, auxOut_resetBlock _,
    ledOut_resetBlock _, rfl, rfl⟩

/-! ## What a command's effect goes through -/

/-- The map keeps what the commands read (`TCFG.RUN` and the parameters) and goes through each of their effects. -/
structure CommandMap (f : State → State) : Prop where
  run : ∀ s, (f s).run = s.run
  params : ∀ s, (f s).params = s.params
  raise : ∀ s c, (f s).raise c = f (s.raise c)
  startTimer : ∀ s n, (f s).startTimer n = f (s.startTimer n)
  writeCmp : ∀ s v, (f s).writeCmp v = f (s.writeCmp v)
  setAux : ∀ s ch d, (f s).setAux ch d = f (s.setAux ch d)
  writeLed : ∀ s i v, (f s).writeLed i v = f (s.writeLed i v)

/-- Such a map takes a command's next state to the command's next state. -/
theorem CommandMap.exec {f : State → State} (hf : CommandMap f) {i : Instr} {s t : State}
    (h : exec i s = .next t) : exec i (f s) = .next (f t) := by
  cases i with
  | cfgp =>
    simp only [Machine.exec, execCfgp, hf.run, hf.params, hf.raise, hf.startTimer] at h ⊢
    split_ifs at h ⊢ <;> cases h <;> rfl
  | setp pct =>
    simp only [Machine.exec, execSetp, hf.run, hf.params, hf.raise, hf.writeCmp] at h ⊢
    split_ifs at h ⊢ <;> cases h <;> rfl
  | seta ch pct =>
    simp only [Machine.exec, execSeta, hf.run, hf.params, hf.raise, hf.setAux] at h ⊢
    split_ifs at h ⊢ <;> cases h <;> rfl
  | led ind col =>
    simp only [Machine.exec, execLed, hf.raise, hf.writeLed] at h ⊢
    cases hc : colorOfCode col <;> simp only [hc] at h ⊢ <;> cases h <;> rfl

/-- The same state with other draws and other turns to come: the model's own free fields (log 2, 7). -/
def State.withFree (s : State) (n : Nat) (l : List Agent) : State := { s with draws := n, turns := l }

theorem commandMap_withFree (n : Nat) (l : List Agent) : CommandMap (fun s => s.withFree n l) where
  run _ := rfl
  params _ := rfl
  raise _ _ := rfl
  startTimer _ _ := rfl
  writeCmp _ _ := rfl
  setAux s ch d := by
    rw [State.setAux_eq, State.setAux_eq]
    rfl
  writeLed _ _ _ := rfl

/-- Settles O57: no command reads the draws or the turns, and none writes them. -/
theorem commandsIgnoreFreeValues : Obligations.CommandsIgnoreFreeValues := by
  unfold Obligations.CommandsIgnoreFreeValues
  exact fun i s t n l h => (commandMap_withFree n l).exec h

end Sys2Proof.Machine

namespace Sys2Proof.Safety

open Sys2Proof.Machine

/-! ## The invariants of the primary unit -/

theorem PrimaryInv.congr {s t : State} (h : PrimaryInv s) (htcfg : t.tcfg = s.tcfg) (htop : t.top = s.top)
    (hcnt : t.cnt = s.cnt) (hcmp : t.cmp = s.cmp) (hcmpAct : t.cmpAct = s.cmpAct) (hparams : t.params = s.params) :
    PrimaryInv t := by
  obtain ⟨hlegal, hscnt, hscmp, hrtop, hrcnt, hbound, habound⟩ := h
  constructor <;> simpa only [State.run, htcfg, htop, hcnt, hcmp, hcmpAct, hparams]

/-- CFGP on a stopped timer keeps the invariants (R90). -/
theorem PrimaryInv.startTimer {s : State} (h : PrimaryInv s) : PrimaryInv (s.startTimer s.params.period) where
  tcfgLegal := .inr rfl
  stoppedCnt _ := rfl
  stoppedCmp hstop := by simp at hstop
  runningTop _ := by
    have := s.params.period_le
    refine ⟨rfl, ?_⟩
    simp only [State.startTimer_top, Elem.fixed_held, State.startTimer_params, BitVec.toNat_ofNat]
    omega
  runningCnt _ := Nat.zero_le _
  cmpBound := h.cmpBound
  cmpActBound := h.cmpBound

/-- SETP on a configured timer keeps the invariants (R92). -/
theorem PrimaryInv.writeCmp {s : State} (h : PrimaryInv s) (hrun : s.run = true) {v : BitVec 16}
    (hv : v.toNat ≤ s.params.period) : PrimaryInv (s.writeCmp v) where
  tcfgLegal := h.tcfgLegal
  stoppedCnt := h.stoppedCnt
  stoppedCmp hstop := by simp [hrun] at hstop
  runningTop := h.runningTop
  runningCnt := h.runningCnt
  cmpBound _ := hv
  cmpActBound := h.cmpActBound

/-- A `CARRIER` step keeps the invariants: it counts no further than `TOP` and loads only `CMP` (R96). -/
theorem PrimaryInv.carrierStep {s : State} (h : PrimaryInv s) (hrun : s.run = true) : PrimaryInv (carrierStep s) := by
  obtain ⟨-, hcnt⟩ := (h.counting hrun).wraps_or_counts.1
  have hact : IfFixed (Machine.carrierStep s).cmpAct (fun v => v.toNat ≤ s.params.period) := by
    rcases carrierStep_cmpAct s with he | he <;> rw [he]
    · exact h.cmpBound
    · exact h.cmpActBound
  rw [carrierStep_frame] at hcnt hact ⊢
  have hstopped : s.run = false → False := by simp [hrun]
  exact ⟨h.tcfgLegal, fun hs => (hstopped hs).elim, h.stoppedCmp, h.runningTop, fun _ => hcnt, h.cmpBound, hact⟩

/-! ## The invariants of the auxiliary unit -/

theorem AuxInv.congr {s t : State} (h : AuxInv s) (hphase : t.auxPhase = s.auxPhase) (hduty : t.auxDuty = s.auxDuty)
    (hact : t.auxAct = s.auxAct) (hen : t.auxEn = s.auxEn) (hrun : s.run = true → t.run = true) : AuxInv t := by
  obtain ⟨hbound, hfixed, hruns⟩ := h
  have hen' : ∀ k, t.auxEnabled k = s.auxEnabled k := fun k => by rw [State.auxEnabled, hen, State.auxEnabled]
  refine ⟨by rwa [hphase], fun k hk => ?_, fun k hk => ?_⟩
  · simpa only [hduty, hact] using hfixed k (hen' k ▸ hk)
  · exact hrun (hruns k (hen' k ▸ hk))

/-- SETA on a configured timer keeps the invariants (R110). -/
theorem AuxInv.setAux {s : State} (h : AuxInv s) (hrun : s.run = true) (ch : Fin 4) (d : BitVec 8) :
    AuxInv (s.setAux ch d) where
  phaseBound := by
    rw [State.setAux_eq]
    exact h.phaseBound
  enabledFixed k hk := by
    by_cases hkc : k = ch
    · subst hkc
      refine ⟨by rw [State.setAux_auxDuty_self]; rfl, ?_⟩
      cases hen : s.auxEnabled k
      · rw [State.setAux_auxAct_self_of_disabled hen]
        rfl
      · rw [State.setAux_auxAct_of_enabled hen]
        exact (h.enabledFixed k hen).2
    · obtain ⟨hduty, hact, hen⟩ := s.setAux_other_channel hkc d
      rw [hduty, hact]
      exact h.enabledFixed k (hen ▸ hk)
  enabledRuns _ _ := (StatusKept.setAux s ch d).run hrun

/-- An `AUXCLK` step keeps the invariants: the duties in use are the old ones or those written (R114). -/
theorem AuxInv.auxclkStep {s : State} (h : AuxInv s) : AuxInv (auxclkStep s) := by
  obtain ⟨-, hle⟩ := auxclkStep_phase h.phaseBound
  obtain ⟨hload, hkeep⟩ := auxclkStep_load h.phaseBound
  have hact : ∀ k : Fin 4, s.auxEnabled k = true → (Machine.auxclkStep s).auxAct[k].unspec = false := fun k hk => by
    obtain ⟨hduty, hact⟩ := h.enabledFixed k hk
    by_cases h0 : (Machine.auxclkStep s).auxPhase.held = 0
    · rwa [hload h0]
    · rwa [hkeep h0]
  rw [auxclkStep_frame] at hle hact ⊢
  exact ⟨fun _ => hle, fun k hk => ⟨(h.enabledFixed k hk).1, hact k hk⟩, h.enabledRuns⟩

/-! ## The invariant of the LED decoder -/

theorem LedInv.congr {s t : State} (h : LedInv s) (hline : t.ledLine = s.ledLine) (hen : t.ledEn = s.ledEn) :
    LedInv t := fun i hi => by
  rw [hline]
  exact h i (by rwa [State.ledEnabled, ← hen])

theorem fivePatterns_pattern (c : Color) : FivePatterns (pattern c) := by
  unfold FivePatterns
  cases c <;> decide

/-- LED keeps the invariant (R125, R126). -/
theorem LedInv.writeLed {s : State} (h : LedInv s) (i : Fin 4) (c : Color) : LedInv (s.writeLed i (pattern c)) := by
  intro k hk
  by_cases hki : k = i
  · subst hki
    have hline : (s.writeLed k (pattern c)).ledLine[k] = .fixed (pattern c) := Vector.getElem_set_self _
    rw [hline]
    exact ⟨rfl, fivePatterns_pattern c⟩
  · obtain ⟨hline, hen⟩ := s.writeLed_other_indicator hki (pattern c)
    rw [hline]
    exact h k (hen ▸ hk)

/-! ## Every step keeps the invariants -/

/-- The invariants speak of no fault bit, of nothing at the port and of none of the model's own fields. -/
theorem Inv.frame {s : State} (h : Inv s) (fault : BitVec 5) (half : Option Byte) (inbox : List PortEvent)
    (index : Nat) (turns : List Agent) (draws : Nat) :
    Inv { s with fault := fault, half := half, inbox := inbox, hostIndex := index, turns := turns, draws := draws } :=
  ⟨h.primary.congr rfl rfl rfl rfl rfl rfl, h.aux.congr rfl rfl rfl rfl id, h.led.congr rfl rfl⟩

/-- The invariants hold after the reset input, from any state (R39, R170). -/
theorem inv_resetBlock (s : State) : Inv s.resetBlock where
  primary :=
    { tcfgLegal := .inl rfl
      stoppedCnt := fun _ => rfl
      stoppedCmp := fun _ => rfl
      runningTop := by simp
      runningCnt := by simp
      cmpBound := nofun
      cmpActBound := nofun }
  aux :=
    { phaseBound := nofun
      enabledFixed := by simp [State.auxEnabled_resetBlock]
      enabledRuns := by simp [State.auxEnabled_resetBlock] }
  led := by simp [LedInv, State.ledEnabled_resetBlock]

/-- Settles O51: the state after reset is what the reset input makes of it. -/
theorem resetMeetsInvariant : Obligations.ResetMeetsInvariant := by
  unfold Obligations.ResetMeetsInvariant
  exact State.resetBlock_reset ▸ inv_resetBlock State.reset

/-- Every command keeps the invariants. -/
theorem Inv.of_command {s t : State} {i : Instr} (h : Inv s) (hr : CommandResult s i t) : Inv t := by
  obtain ⟨hpri, haux, hled⟩ := h
  cases hr with
  | faulted i c => exact Inv.frame ⟨hpri, haux, hled⟩ _ _ _ _ _ _
  | configured =>
    exact ⟨hpri.startTimer, haux.congr rfl rfl rfl rfl fun _ => State.run_startTimer _ _, hled.congr rfl rfl⟩
  | primary pct hrun =>
    have hv := (toNat_cmpValue s.params pct).trans_le (cmpValue_le s.params.priRound s.params.period_le pct)
    exact ⟨hpri.writeCmp hrun hv, haux.congr rfl rfl rfl rfl id, hled.congr rfl rfl⟩
  | auxiliary ch pct hrun =>
    refine ⟨?_, haux.setAux hrun ch _, ?_⟩ <;> rw [State.setAux_eq]
    · exact hpri.congr rfl rfl rfl rfl rfl rfl
    · exact hled.congr rfl rfl
  | colour ind c =>
    exact ⟨hpri.congr rfl rfl rfl rfl rfl rfl, haux.congr rfl rfl rfl rfl id, hled.writeLed ind c⟩

theorem Inv.carrierStep {s : State} (h : Inv s) (hrun : s.run = true) : Inv (carrierStep s) := by
  refine ⟨h.primary.carrierStep hrun, ?_, ?_⟩ <;> rw [carrierStep_frame]
  · exact h.aux.congr rfl rfl rfl rfl id
  · exact h.led.congr rfl rfl

theorem Inv.auxclkStep {s : State} (h : Inv s) : Inv (auxclkStep s) := by
  refine ⟨?_, h.aux.auxclkStep, ?_⟩ <;> rw [auxclkStep_frame]
  · exact h.primary.congr rfl rfl rfl rfl rfl rfl
  · exact h.led.congr rfl rfl

/-- Every agent's step keeps the invariants. -/
theorem Inv.of_stepResult {s t : State} {a : Agent} (h : Inv s) (hr : StepResult s a t) : Inv t := by
  cases hr with
  | carrier hrun => exact h.carrierStep hrun
  | auxclk => exact h.auxclkStep
  | command _ _ hc _ => exact (h.frame s.fault _ _ _ s.turns s.draws).of_command hc
  | illegal => exact h.frame _ _ _ _ _ _
  | firstByte => exact h.frame _ _ _ _ _ _
  | reset => exact inv_resetBlock _

/-- Settles O52: the chosen agent's turn and fresh draws bear on no invariant, and its step keeps them all. -/
theorem stepKeepsInvariant : Obligations.StepKeepsInvariant := by
  unfold Obligations.StepKeepsInvariant
  intro s t h hstep
  have hbegin : Inv (s.begin s.nextTurn.2) := h.frame _ _ _ _ _ _
  exact hbegin.of_stepResult (StepResult.of_step hstep)

/-! ## What is held under an `UNSPEC` mark is never read (R21; log 1) -/

@[simp] theorem read_forgetElem {w : Nat} (e : Elem w) (d : BitVec w) : (forgetElem e).read d = e.read d := by
  cases h : e.unspec <;> simp [forgetElem, Elem.read, h]

@[simp] theorem forgetElem_fixed {w : Nat} (v : BitVec w) : forgetElem (.fixed v) = .fixed v := rfl

@[simp] theorem forgetElem_unspecified {w : Nat} : forgetElem (w := w) .unspecified = .unspecified := rfl

/-- The commands read no element that may be `UNSPEC`, and forgetting goes through what they write. -/
theorem commandMap_forgetUnspec : CommandMap forgetUnspec where
  run _ := rfl
  params _ := rfl
  raise _ _ := rfl
  startTimer _ _ := rfl
  writeCmp _ _ := rfl
  setAux s ch d := by
    cases h : s.auxEnabled ch
    · rw [State.setAux_of_disabled h, State.setAux_of_disabled (s := forgetUnspec s) h]
      simp [forgetUnspec, State.writeAuxDuty, State.startAux, Vector.map_set]
    · rw [State.setAux_of_enabled h, State.setAux_of_enabled (s := forgetUnspec s) h]
      simp [forgetUnspec, State.writeAuxDuty, Vector.map_set]
  writeLed s i v := by simp [forgetUnspec, State.writeLed, Vector.map_set]

theorem carrierStep_forgetUnspec (s : State) : carrierStep (forgetUnspec s) = forgetUnspec (carrierStep s) := by
  have hread : (forgetUnspec s).top.read (Config.freeTop (forgetUnspec s).draws)
      = s.top.read (Config.freeTop s.draws) := read_forgetElem _ _
  rw [carrierStep, carrierStep, hread, apply_ite forgetUnspec]
  rfl

theorem auxclkStep_forgetUnspec (s : State) : auxclkStep (forgetUnspec s) = forgetUnspec (auxclkStep s) := by
  have hphase : (forgetUnspec s).phaseNow = s.phaseNow := read_forgetElem _ _
  rw [auxclkStep, auxclkStep, hphase, apply_ite forgetUnspec]
  rfl

theorem resetBlock_forgetUnspec (s : State) : (forgetUnspec s).resetBlock = forgetUnspec s.resetBlock := by
  simp [forgetUnspec, State.resetBlock, State.reset]

theorem issueWord_forgetUnspec {s t : State} {w : Word} (h : issueWord w s = .next t) :
    issueWord w (forgetUnspec s) = .next (forgetUnspec t) := by
  cases hd : decode w with
  | ok i =>
    rw [issueWord_of_ok hd] at h ⊢
    exact commandMap_forgetUnspec.exec h
  | error e =>
    rw [issueWord_of_error hd] at h ⊢
    cases h
    rfl

theorem takeByte_forgetUnspec {s t : State} {b : Byte} (h : takeByte b s = .next t) :
    takeByte b (forgetUnspec s) = .next (forgetUnspec t) := by
  cases hh : s.half with
  | none =>
    rw [takeByte_first hh] at h
    cases h
    exact takeByte_first (s := forgetUnspec s) hh b
  | some b0 =>
    rw [takeByte_second hh] at h
    exact (takeByte_second (s := forgetUnspec s) hh b).trans (issueWord_forgetUnspec h)

theorem takeEvent_forgetUnspec {s t : State} {e : PortEvent} (h : takeEvent e s = .next t) :
    takeEvent e (forgetUnspec s) = .next (forgetUnspec t) := by
  cases e with
  | word w => exact issueWord_forgetUnspec h
  | byte b => exact takeByte_forgetUnspec h
  | reset p =>
    cases h
    exact congrArg _ (resetBlock_forgetUnspec s)

theorem hostStep_forgetUnspec {s t : State} (h : hostStep s = .next t) :
    hostStep (forgetUnspec s) = .next (forgetUnspec t) := by
  cases hi : s.inbox with
  | nil =>
    rw [hostStep_nil hi] at h
    cases h
    exact hostStep_nil (s := forgetUnspec s) hi
  | cons e rest =>
    rw [hostStep_cons hi] at h
    exact (hostStep_cons (s := forgetUnspec s) hi).trans (takeEvent_forgetUnspec h)

theorem agentStep_forgetUnspec {s t : State} {a : Agent} (h : agentStep a s = .next t) :
    agentStep a (forgetUnspec s) = .next (forgetUnspec t) := by
  cases a with
  | host => exact hostStep_forgetUnspec h
  | carrier =>
    cases h
    exact congrArg _ (carrierStep_forgetUnspec s)
  | auxclk =>
    cases h
    exact congrArg _ (auxclkStep_forgetUnspec s)

/-- Who steps next is chosen without reading an element that may be `UNSPEC`. -/
theorem nextTurn_forgetUnspec (s : State) : (forgetUnspec s).nextTurn = s.nextTurn := by
  have hen : (forgetUnspec s).enabled = s.enabled := funext fun a => by cases a <;> rfl
  rw [State.nextTurn, State.freeTurn, hen]
  rfl

theorem priOut_forgetUnspec (s : State) : priOut (forgetUnspec s) = priOut s := by
  simp only [priOut, forgetUnspec, read_forgetElem]
  rfl

theorem auxOut_forgetUnspec (s : State) (k : Fin 4) : auxOut (forgetUnspec s) k = auxOut s k := by
  simp only [auxOut, forgetUnspec, read_forgetElem, Fin.getElem_fin, Vector.getElem_map]
  rfl

theorem ledOut_forgetUnspec (s : State) (i : Fin 4) (c : LedColour) :
    ledOut (forgetUnspec s) i c = ledOut s i c := by
  simp only [ledOut, forgetUnspec, read_forgetElem, Fin.getElem_fin, Vector.getElem_map]
  rfl

/-- Settles O54: forgetting goes through the step of whichever agent has the turn. -/
theorem heldUnderMarkNeverRead : Obligations.HeldUnderMarkNeverRead := by
  unfold Obligations.HeldUnderMarkNeverRead
  intro s t h
  refine ⟨?_, priOut_forgetUnspec s, auxOut_forgetUnspec s, ledOut_forgetUnspec s⟩
  rw [step, nextTurn_forgetUnspec]
  exact agentStep_forgetUnspec h

end Sys2Proof.Safety
end

section
/-! The command port (20_memory.md): the two bytes of a word and the order they travel in (R52), how bytes pair up to
a word that is carried out (R53), and commands issued a second time (R54). -/

namespace Sys2Proof

/-! ## The two bytes of a word (R52) -/

theorem toNat_lowByte (w : Word) : (w.extractLsb' 0 8).toNat = w.toNat % 256 := by
  rw [BitVec.extractLsb'_toNat, Nat.shiftRight_zero]

theorem toNat_highByte (w : Word) : (w.extractLsb' 8 8).toNat = w.toNat / 256 := by
  rw [BitVec.extractLsb'_toNat, Nat.shiftRight_eq_div_pow]
  exact Nat.mod_eq_of_lt (by omega)

theorem highByte_append_lowByte (w : Word) : w.extractLsb' 8 8 ++ w.extractLsb' 0 8 = w := by
  rw [BitVec.extractLsb'_append_extractLsb'_eq_extractLsb' (by decide)]
  exact BitVec.extractLsb'_eq_self

theorem joinBytes_splitWord (order : ByteOrder) (w : Word) :
    joinBytes order (splitWord order w).1 (splitWord order w).2 = w := by
  cases order
  · exact highByte_append_lowByte w
  · exact highByte_append_lowByte w

/-- Settles O7. -/
theorem byteOrderOfWords : Obligations.ByteOrderOfWords := by
  unfold Obligations.ByteOrderOfWords
  exact fun w => ⟨⟨toNat_lowByte w, toNat_highByte w⟩, ⟨toNat_highByte w, toNat_lowByte w⟩,
    fun order => joinBytes_splitWord order w⟩

namespace Machine

/-! ## Bytes that arrive one by one (R52, R53) -/

theorem step_of_byte {s : State} {b : Byte} {rest : List PortEvent} (hturn : s.nextTurn.1 = .host)
    (hinbox : s.inbox = .byte b :: rest) :
    step s = takeByte b { s.begin s.nextTurn.2 with inbox := rest } :=
  (step_of_nextTurn hturn).trans (hostStep_cons (s := s.begin s.nextTurn.2) hinbox)

/-- The byte after a kept one issues the word of the two. -/
theorem step_of_second_byte {s : State} {b b0 : Byte} {rest : List PortEvent} (hturn : s.nextTurn.1 = .host)
    (hinbox : s.inbox = .byte b :: rest) (hhalf : s.half = some b0) :
    step s = issueWord (joinBytes s.params.cmdByteOrder b0 b)
      { s.begin s.nextTurn.2 with inbox := rest, half := none } :=
  (step_of_byte hturn hinbox).trans (takeByte_second (s := { s.begin s.nextTurn.2 with inbox := rest }) hhalf b)

/-- Settles O10: the statement's join of the two bytes is `joinBytes`. -/
theorem stepPairsBytes : Obligations.StepPairsBytes := by
  unfold Obligations.StepPairsBytes
  intro s b rest hturn hinbox
  refine ⟨fun hhalf => ?_, fun b0 i hhalf hd => ?_, fun b0 e hhalf hd => ?_⟩
  · exact (step_of_byte hturn hinbox).trans
      (takeByte_first (s := { s.begin s.nextTurn.2 with inbox := rest }) hhalf b)
  · have hd' : decode (joinBytes s.params.cmdByteOrder b0 b) = .ok i := hd
    exact (step_of_second_byte hturn hinbox hhalf).trans (issueWord_of_ok hd' _)
  · have hd' : decode (joinBytes s.params.cmdByteOrder b0 b) = .error e := hd
    exact (step_of_second_byte hturn hinbox hhalf).trans (issueWord_of_error hd' _)

/-! ## What a command answers where it does not fault, and CFGP where it does -/

theorem exec_cfgp_of_run {s : State} (h : s.run = true) : exec .cfgp s = .next (s.raise .reconfigure) := by
  simp only [exec, execCfgp, h, if_true]

theorem exec_setp_of_run {s : State} (h : s.run = true) {pct : Nat} (hp : pct ≤ 100) :
    exec (.setp pct) s
      = .next (s.writeCmp (BitVec.ofNat 16 (cmpValue s.params.priRound s.params.period pct))) := by
  simp [exec, execSetp, h, hp]

theorem exec_seta_of_run {s : State} (h : s.run = true) (ch : Fin 4) {pct : Nat} (hp : pct ≤ 100) :
    exec (.seta ch pct) s = .next (s.setAux ch (BitVec.ofNat 8 (auxValue s.params.auxRound pct))) := by
  simp [exec, execSeta, h, hp]

theorem exec_led_code (s : State) (ind : Fin 4) (c : Color) :
    exec (.led ind c.code) s = .next (s.writeLed ind (pattern c)) := by
  simp only [exec, execLed, colorOfCode_code]

/-- The timer runs after CFGP: started by it, or running before (R90, R91). -/
theorem run_of_exec_cfgp {s t : State} (h : exec .cfgp s = .next t) : t.run = true := by
  cases hrun : s.run with
  | true => exact (CommandResult.of_exec h).statusKept.run hrun
  | false =>
    rw [exec, execCfgp, hrun] at h
    cases h
    exact State.run_startTimer _ _

/-! ## Effects made twice (R54) -/

theorem State.raise_raise (s : State) (c : FaultCode) : (s.raise c).raise c = s.raise c := by
  simp [State.raise]

theorem State.writeCmp_writeCmp (s : State) (v : BitVec 16) : (s.writeCmp v).writeCmp v = s.writeCmp v := rfl

/-- A SETA that started its channel finds it started when it is repeated, and writes only the duty it wrote. -/
theorem State.setAux_setAux (s : State) (ch : Fin 4) (d : BitVec 8) :
    (s.setAux ch d).setAux ch d = s.setAux ch d := by
  have hen : (s.setAux ch d).auxEnabled ch = true := by simp [State.auxEnabled_setAux]
  rw [State.setAux_of_enabled hen, State.setAux_eq]
  simp [State.writeAuxDuty]

theorem State.writeLed_writeLed (s : State) (i : Fin 4) (v : BitVec 3) :
    (s.writeLed i v).writeLed i v = s.writeLed i v := by
  simp [State.writeLed]

theorem setBit_comm {n : Nat} (v : BitVec n) (i j : Nat) : setBit (setBit v i) j = setBit (setBit v j) i := by
  rw [setBit, setBit, setBit, setBit, BitVec.or_assoc, BitVec.or_assoc, BitVec.or_comm (.twoPow n i)]

/-- No command reads a fault bit, and faults add up in any order. -/
theorem commandMap_raise (c : FaultCode) : CommandMap (fun s => s.raise c) where
  run _ := rfl
  params _ := rfl
  raise s d := by simp [State.raise, setBit_comm s.fault c.bit d.bit]
  startTimer _ _ := rfl
  writeCmp _ _ := rfl
  setAux s ch d := by
    rw [State.setAux_eq, State.setAux_eq]
    rfl
  writeLed _ _ _ := rfl

/-- A command other than CFGP leaves a state in which it faults the same way, or has the same effect, once more. -/
theorem CommandResult.exec_again {s t : State} {i : Instr} (h : CommandResult s i t) (he : exec i s = .next t)
    (hi : i ≠ .cfgp) : exec i t = .next t := by
  cases h with
  | faulted i c => exact ((commandMap_raise c).exec he).trans (congrArg _ (s.raise_raise c))
  | configured => exact absurd rfl hi
  | primary pct hrun hp => exact exec_setp_of_run (s := s.writeCmp _) hrun hp
  | auxiliary ch pct hrun hp =>
    obtain ⟨-, -, -, -, -, hparams⟩ := (CommandResult.auxiliary ch pct hrun hp).frame
    rw [exec_seta_of_run ((StatusKept.setAux s ch _).run hrun) ch hp, hparams, State.setAux_setAux]
  | colour ind c => rw [exec_led_code, State.writeLed_writeLed]

/-- Settles O55. -/
theorem commandsIdempotent : Obligations.CommandsIdempotent := by
  unfold Obligations.CommandsIdempotent
  intro i s t h
  refine ⟨(CommandResult.of_exec h).exec_again h, ?_⟩
  rintro rfl
  exact exec_cfgp_of_run (run_of_exec_cfgp h)

end Machine

end Sys2Proof
end

section
/-! The encoding (30_encoding.md): the number each command's word is (R72 to R75), what the decoder can answer
(R78, R80), the masks of the opcode table (R79), the counts (R82), the worked words (R85) and the pseudo-instructions
(R84). -/

namespace Sys2Proof

/-! ## Words as numbers (R71 to R75) -/

theorem field_eq (w : Word) (lo len : Nat) : field w lo len = w.toNat / 2 ^ lo % 2 ^ len := by
  rw [field, BitVec.extractLsb'_toNat, Nat.shiftRight_eq_div_pow]

theorem field98_val (w : Word) : (field98 w).val = w.toNat / 256 % 4 := field_eq w 8 2

/-- The command's word as a number: its `OP` field and its operands, each at the weight of its field (R72 to R75). -/
def Instr.number : Instr → Nat
  | .cfgp => 0x2000
  | .setp pct => 0x4000 + pct
  | .seta ch pct => 0x6000 + 256 * ch + pct
  | .led ind col => 0x8000 + 256 * ind + col

@[simp] theorem Instr.wf_cfgp : Instr.cfgp.wf = true := rfl
@[simp] theorem Instr.wf_setp {pct : Nat} : (Instr.setp pct).wf = true ↔ pct < 128 := decide_eq_true_iff
@[simp] theorem Instr.wf_seta {ch : Fin 4} {pct : Nat} : (Instr.seta ch pct).wf = true ↔ pct < 128 :=
  decide_eq_true_iff
@[simp] theorem Instr.wf_led {ind : Fin 4} {col : Nat} : (Instr.led ind col).wf = true ↔ col < 8 :=
  decide_eq_true_iff

/-- Fields written side by side add up at their weights. -/
theorem toNat_append_eq_add {m n : Nat} (x : BitVec m) (y : BitVec n) :
    (x ++ y).toNat = x.toNat * 2 ^ n + y.toNat := by
  rw [BitVec.toNat_append, ← Nat.shiftLeft_add_eq_or_of_lt y.isLt, Nat.shiftLeft_eq]

theorem toNat_encode {i : Instr} (h : i.wf = true) : (encode i).toNat = i.number := by
  cases i with
  | cfgp => rfl
  | _ =>
    simp only [encode, toNat_append_eq_add, BitVec.toNat_ofNat, Instr.number, Instr.wf_setp, Instr.wf_seta,
      Instr.wf_led] at h ⊢
    omega

/-- A word is the encoding of a well-formed command exactly when it is that command's number. -/
theorem encode_eq_iff {i : Instr} (h : i.wf = true) (w : Word) : encode i = w ↔ w.toNat = i.number := by
  rw [← toNat_encode h, BitVec.toNat_inj, eq_comm]

/-! ## What the decoder answers (R78, R80) -/

/-- R80 of the word as a number: `OP` is 0, 5, 6 or 7, or a reserved bit of the format is 1. -/
def IllegalNumber (n : Nat) : Prop :=
  (n / 8192 = 0 ∨ n / 8192 = 5 ∨ n / 8192 = 6 ∨ n / 8192 = 7) ∨
  (n / 8192 = 1 ∧ n % 8192 ≠ 0) ∨
  (n / 8192 = 2 ∧ n / 128 % 64 ≠ 0) ∨
  (n / 8192 = 3 ∧ (n / 1024 % 8 ≠ 0 ∨ n / 128 % 2 ≠ 0)) ∨
  (n / 8192 = 4 ∧ (n / 1024 % 8 ≠ 0 ∨ n / 8 % 32 ≠ 0))

/-- What decoding a word answers: the well-formed command whose number the word is, or an error for an illegal one. -/
inductive DecodeResult (w : Word) : Except DecodeError Instr → Prop where
  | command {i : Instr} (hwf : i.wf = true) (hn : w.toNat = i.number) : DecodeResult w (.ok i)
  | illegal {e : DecodeError} (h : IllegalNumber w.toNat) : DecodeResult w (.error e)

theorem decode_result (w : Word) : DecodeResult w (decode w) := by
  have hlt := w.isLt
  unfold decode
  simp only [field_eq]
  split
  · split
    · exact .command rfl (by simp only [Instr.number]; omega)
    · exact .illegal (by unfold IllegalNumber; omega)
  · split
    · exact .command (by simp; omega) (by simp only [Instr.number]; omega)
    · exact .illegal (by unfold IllegalNumber; omega)
  · split
    · exact .command (by simp; omega) (by simp only [Instr.number, field98_val]; omega)
    · exact .illegal (by unfold IllegalNumber; omega)
  · split
    · exact .command (by simp; omega) (by simp only [Instr.number, field98_val]; omega)
    · exact .illegal (by unfold IllegalNumber; omega)
  · exact .illegal (by unfold IllegalNumber; simp only [imp_false] at *; omega)

theorem not_illegalNumber {i : Instr} (h : i.wf = true) : ¬ IllegalNumber i.number := by
  cases i <;> simp only [Instr.number, IllegalNumber, Instr.wf_setp, Instr.wf_seta, Instr.wf_led] at h ⊢ <;> omega

/-- The `OP` field tells the rows apart, and no operand of a well-formed command reaches another field. -/
theorem Instr.number_inj {i j : Instr} (hi : i.wf = true) (hj : j.wf = true) (h : i.number = j.number) : i = j := by
  cases i <;> cases j <;> simp [Instr.number, Fin.ext_iff] at hi hj h ⊢ <;> omega

theorem number_of_decode {w : Word} {i : Instr} (h : decode w = .ok i) : i.wf = true ∧ w.toNat = i.number :=
  match h ▸ decode_result w with
  | .command hwf hn => ⟨hwf, hn⟩

theorem illegalNumber_of_decode {w : Word} {e : DecodeError} (h : decode w = .error e) : IllegalNumber w.toNat :=
  match h ▸ decode_result w with
  | .illegal hill => hill

/-- A word decodes to the well-formed command whose number it is, and to no other. -/
theorem decode_eq_ok_iff {w : Word} {i : Instr} : decode w = .ok i ↔ i.wf = true ∧ w.toNat = i.number := by
  refine ⟨number_of_decode, fun ⟨hwf, hn⟩ => ?_⟩
  cases hd : decode w with
  | ok j =>
    obtain ⟨hjwf, hjn⟩ := number_of_decode hd
    rw [Instr.number_inj hwf hjwf (hn.symm.trans hjn)]
  | error e => exact absurd (hn ▸ illegalNumber_of_decode hd) (not_illegalNumber hwf)

theorem decode_error_iff {w : Word} : (∃ e, decode w = .error e) ↔ IllegalNumber w.toNat := by
  refine ⟨fun ⟨_, h⟩ => illegalNumber_of_decode h, fun hill => ?_⟩
  cases hd : decode w with
  | ok i =>
    obtain ⟨hwf, hn⟩ := number_of_decode hd
    exact absurd (hn ▸ hill) (not_illegalNumber hwf)
  | error e => exact ⟨e, rfl⟩

/-- Settles O1: a well-formed command's word is its number, and that number decodes to it. -/
theorem decodeOfEncode : Obligations.DecodeOfEncode := by
  unfold Obligations.DecodeOfEncode
  exact fun i h => decode_eq_ok_iff.mpr ⟨h, toNat_encode h⟩

/-- Settles O2: a decoded word is the number of the command, as the command's own word is. -/
theorem encodeOfDecode : Obligations.EncodeOfDecode := by
  unfold Obligations.EncodeOfDecode
  intro w i h
  obtain ⟨hwf, hn⟩ := decode_eq_ok_iff.mp h
  exact ⟨hwf, (encode_eq_iff hwf w).mpr hn⟩

/-! ## The masks of the opcode table (R79) -/

/-- A mask may be applied to the upper and the lower bits apart. -/
theorem land_eq_iff_div_mod (k a m v : Nat) :
    a &&& m = v ↔ a / 2 ^ k &&& m / 2 ^ k = v / 2 ^ k ∧ a % 2 ^ k &&& m % 2 ^ k = v % 2 ^ k := by
  rw [← Nat.and_div_two_pow, ← Nat.and_mod_two_pow, Nat.ext_div_mod_iff (2 ^ k)]

theorem and_mask_cfgp (w : Word) : w &&& 0xFFFF = 0x2000 ↔ w.toNat = 0x2000 := by
  have hw := Nat.and_two_pow_sub_one_of_lt_two_pow w.isLt
  rw [← BitVec.toNat_inj, BitVec.toNat_and]
  exact iff_of_eq (congrArg (· = 0x2000) hw)

theorem and_mask_setp (w : Word) : w &&& 0xFF80 = 0x4000 ↔ w.toNat / 128 = 128 := by
  have hhigh : w.toNat / 128 &&& 511 = w.toNat / 128 % 512 := Nat.and_two_pow_sub_one_eq_mod _ 9
  rw [← BitVec.toNat_inj, BitVec.toNat_and, land_eq_iff_div_mod 7]
  simp only [BitVec.ofNat_eq_ofNat, BitVec.toNat_ofNat, Nat.reducePow, Nat.reduceMod, Nat.reduceDiv, hhigh,
    Nat.and_zero, and_true]
  omega

theorem and_mask_seta (w : Word) :
    w &&& 0xFC80 = 0x6000 ↔ w.toNat / 1024 = 24 ∧ w.toNat / 128 % 2 = 0 := by
  have hhigh : w.toNat / 1024 &&& 63 = w.toNat / 1024 % 64 := Nat.and_two_pow_sub_one_eq_mod _ 6
  have hlow : w.toNat % 1024 / 128 &&& 1 = w.toNat % 1024 / 128 % 2 := Nat.and_two_pow_sub_one_eq_mod _ 1
  rw [← BitVec.toNat_inj, BitVec.toNat_and, land_eq_iff_div_mod 10, land_eq_iff_div_mod 7 (_ % _)]
  simp only [BitVec.ofNat_eq_ofNat, BitVec.toNat_ofNat, Nat.reducePow, Nat.reduceMod, Nat.reduceDiv, hhigh, hlow,
    Nat.and_zero, and_true]
  omega

theorem and_mask_led (w : Word) :
    w &&& 0xFCF8 = 0x8000 ↔ w.toNat / 1024 = 32 ∧ w.toNat / 8 % 32 = 0 := by
  have hhigh : w.toNat / 1024 &&& 63 = w.toNat / 1024 % 64 := Nat.and_two_pow_sub_one_eq_mod _ 6
  have hlow : w.toNat % 1024 / 8 &&& 31 = w.toNat % 1024 / 8 % 32 := Nat.and_two_pow_sub_one_eq_mod _ 5
  rw [← BitVec.toNat_inj, BitVec.toNat_and, land_eq_iff_div_mod 10, land_eq_iff_div_mod 3 (_ % _)]
  simp only [BitVec.ofNat_eq_ofNat, BitVec.toNat_ofNat, Nat.reducePow, Nat.reduceMod, Nat.reduceDiv, hhigh, hlow,
    Nat.and_zero, and_true]
  omega

theorem decode_eq_cfgp_iff {w : Word} : decode w = .ok .cfgp ↔ w.toNat = 0x2000 := by
  simp [decode_eq_ok_iff, Instr.number]

theorem decode_eq_setp_iff {w : Word} {pct : Nat} :
    decode w = .ok (.setp pct) ↔ w.toNat / 128 = 128 ∧ pct = w.toNat % 128 := by
  simp only [decode_eq_ok_iff, Instr.wf_setp, Instr.number]
  omega

theorem decode_eq_seta_iff {w : Word} {ch : Fin 4} {pct : Nat} :
    decode w = .ok (.seta ch pct) ↔
      (w.toNat / 1024 = 24 ∧ w.toNat / 128 % 2 = 0) ∧ ch = field98 w ∧ pct = w.toNat % 128 := by
  simp only [decode_eq_ok_iff, Instr.wf_seta, Instr.number, Fin.ext_iff, field98_val]
  omega

theorem decode_eq_led_iff {w : Word} {ind : Fin 4} {col : Nat} :
    decode w = .ok (.led ind col) ↔
      (w.toNat / 1024 = 32 ∧ w.toNat / 8 % 32 = 0) ∧ ind = field98 w ∧ col = w.toNat % 8 := by
  simp only [decode_eq_ok_iff, Instr.wf_led, Instr.number, Fin.ext_iff, field98_val]
  omega

/-- Settles O3: a mask and its row's decoding ask the same of the word's fields. -/
theorem opcodeMapSelects : Obligations.OpcodeMapSelects := by
  unfold Obligations.OpcodeMapSelects
  intro w
  refine ⟨?_, ?_, ?_, ?_, fun pct h => ?_, fun ch pct h => ?_, fun ind col h => ?_⟩
  · rw [and_mask_cfgp, decode_eq_cfgp_iff]
  · rw [and_mask_setp]
    simp [decode_eq_setp_iff]
  · rw [and_mask_seta]
    simp [decode_eq_seta_iff]
  · rw [and_mask_led]
    simp [decode_eq_led_iff]
  · exact (decode_eq_setp_iff.mp h).2
  · obtain ⟨-, rfl, hpct⟩ := decode_eq_seta_iff.mp h
    exact ⟨field98_val w, hpct⟩
  · obtain ⟨-, rfl, hcol⟩ := decode_eq_led_iff.mp h
    exact ⟨field98_val w, hcol⟩

/-! ## Illegal words (R80) -/

/-- A word that no row of the opcode table selects is illegal (R79, R80). -/
theorem decode_error_of_unselected {w : Word} (hcfgp : w &&& 0xFFFF ≠ 0x2000) (hsetp : w &&& 0xFF80 ≠ 0x4000)
    (hseta : w &&& 0xFC80 ≠ 0x6000) (hled : w &&& 0xFCF8 ≠ 0x8000) : ∃ e, decode w = .error e := by
  obtain ⟨cfgp, setp, seta, led, -⟩ := opcodeMapSelects w
  cases hd : decode w with
  | error e => exact ⟨e, rfl⟩
  | ok i =>
    cases i with
    | cfgp => exact absurd (cfgp.mpr hd) hcfgp
    | setp pct => exact absurd (setp.mpr ⟨pct, hd⟩) hsetp
    | seta ch pct => exact absurd (seta.mpr ⟨ch, pct, hd⟩) hseta
    | led ind col => exact absurd (led.mpr ⟨ind, col, hd⟩) hled

/-- Settles O4. -/
theorem illegalWordsFault : Obligations.IllegalWordsFault := by
  unfold Obligations.IllegalWordsFault
  exact ⟨fun w => decode_error_iff, fun w e s h => Machine.issueWord_of_error h s,
    fun w => decode_error_of_unselected, ⟨.reservedOp 0, by decide⟩, ⟨.reservedOp 7, by decide⟩⟩

/-! ## How many words each command has (R82) -/

theorem decode_ofNat_eq_ok_iff {n : Nat} (hn : n < 65536) {i : Instr} :
    decode (BitVec.ofNat 16 n) = .ok i ↔ i.wf = true ∧ i.number = n := by
  rw [decode_eq_ok_iff, BitVec.toNat_ofNat, Nat.mod_eq_of_lt hn, eq_comm (a := n)]

/-- The words that decode to one of a list of commands are as many as the commands: each has its one word. -/
theorem countWords_eq_length {p : Except DecodeError Instr → Bool} {l : List Instr} (hl : l.Nodup)
    (herr : ∀ e, p (.error e) = false) (hp : ∀ i, i ∈ l ↔ i.wf = true ∧ p (.ok i) = true) :
    Safety.countWords p = l.length := by
  have hwf : ∀ i ∈ l, i.wf = true := fun i hi => ((hp i).mp hi).1
  have hnd : (l.map Instr.number).Nodup :=
    hl.map_on fun i hi j hj h => Instr.number_inj (hwf i hi) (hwf j hj) h
  have hmem : ∀ n, n ∈ (List.range 65536).filter (fun n => p (decode (BitVec.ofNat 16 n))) ↔
      n ∈ l.map Instr.number := by
    intro n
    rw [List.mem_filter, List.mem_range, List.mem_map]
    constructor
    · rintro ⟨hn, hpn⟩
      cases hd : decode (BitVec.ofNat 16 n) with
      | error e => simp [hd, herr] at hpn
      | ok i =>
        obtain ⟨hi, hin⟩ := (decode_ofNat_eq_ok_iff hn).mp hd
        exact ⟨i, (hp i).mpr ⟨hi, hd ▸ hpn⟩, hin⟩
    · rintro ⟨i, hi, rfl⟩
      obtain ⟨hiwf, hpi⟩ := (hp i).mp hi
      have hn : i.number < 65536 := toNat_encode hiwf ▸ (encode i).isLt
      exact ⟨hn, (decode_ofNat_eq_ok_iff hn).mpr ⟨hiwf, rfl⟩ ▸ hpi⟩
  have hperm := (List.perm_ext_iff_of_nodup (List.nodup_range.filter _) hnd).mpr hmem
  rw [Safety.countWords, List.countP_eq_length_filter, hperm.length_eq, List.length_map]

/-- The SETP with a percent below `n`. -/
def setpsBelow (n : Nat) : List Instr := (List.range n).map .setp

/-- The SETA, or the LED, of every channel or indicator with a second operand below `n`. -/
def indexedBelow (mk : Fin 4 → Nat → Instr) (n : Nat) : List Instr :=
  (List.finRange 4 ×ˢ List.range n).map (Function.uncurry mk)

@[simp] theorem mem_setpsBelow {n : Nat} {i : Instr} : i ∈ setpsBelow n ↔ ∃ pct < n, .setp pct = i := by
  simp [setpsBelow]

@[simp] theorem mem_indexedBelow {mk : Fin 4 → Nat → Instr} {n : Nat} {i : Instr} :
    i ∈ indexedBelow mk n ↔ ∃ k, ∃ m < n, mk k m = i := by
  simp [indexedBelow]

@[simp] theorem length_setpsBelow (n : Nat) : (setpsBelow n).length = n := by simp [setpsBelow]

@[simp] theorem length_indexedBelow (mk : Fin 4 → Nat → Instr) (n : Nat) : (indexedBelow mk n).length = 4 * n := by
  rw [indexedBelow, List.length_map, List.length_product, List.length_finRange, List.length_range]

theorem nodup_setpsBelow (n : Nat) : (setpsBelow n).Nodup :=
  List.nodup_range.map fun _ _ => Instr.setp.inj

theorem nodup_indexedBelow {mk : Fin 4 → Nat → Instr} (h : Function.Injective2 mk) (n : Nat) :
    (indexedBelow mk n).Nodup :=
  ((List.nodup_finRange 4).product List.nodup_range).map h.uncurry

theorem seta_injective2 : Function.Injective2 Instr.seta := fun _ _ _ _ => Instr.seta.inj

theorem led_injective2 : Function.Injective2 Instr.led := fun _ _ _ _ => Instr.led.inj

/-- Every well-formed command. -/
def legalCommands : List Instr :=
  .cfgp :: (setpsBelow 128 ++ (indexedBelow .seta 128 ++ indexedBelow .led 8))

@[simp] theorem mem_legalCommands {i : Instr} : i ∈ legalCommands ↔ i.wf = true := by
  cases i <;> simp [legalCommands]

theorem nodup_legalCommands : legalCommands.Nodup := by
  have hcfgp : .cfgp ∉ setpsBelow 128 ++ (indexedBelow .seta 128 ++ indexedBelow .led 8) := by simp
  have hsetp : (setpsBelow 128).Disjoint (indexedBelow .seta 128 ++ indexedBelow .led 8) := by
    simp [List.Disjoint]
  have hseta : (indexedBelow .seta 128).Disjoint (indexedBelow .led 8) := by
    rintro i h
    obtain ⟨ch, pct, -, rfl⟩ := mem_indexedBelow.mp h
    simp
  exact .cons hcfgp <| (nodup_setpsBelow _).append
    ((nodup_indexedBelow seta_injective2 _).append (nodup_indexedBelow led_injective2 _) hseta) hsetp

theorem countWords_setp {p : Except DecodeError Instr → Bool} {n : Nat} (herr : ∀ e, p (.error e) = false)
    (hp : ∀ i, i ∈ setpsBelow n ↔ i.wf = true ∧ p (.ok i) = true) : Safety.countWords p = n :=
  (countWords_eq_length (nodup_setpsBelow n) herr hp).trans (length_setpsBelow n)

theorem countWords_indexed {p : Except DecodeError Instr → Bool} {mk : Fin 4 → Nat → Instr}
    (hmk : Function.Injective2 mk) {n : Nat} (herr : ∀ e, p (.error e) = false)
    (hp : ∀ i, i ∈ indexedBelow mk n ↔ i.wf = true ∧ p (.ok i) = true) : Safety.countWords p = 4 * n :=
  (countWords_eq_length (nodup_indexedBelow hmk n) herr hp).trans (length_indexedBelow mk n)

/-- Every one of the 65536 words is counted by `p` or by its negation. -/
theorem countWords_add_countWords_not (p : Except DecodeError Instr → Bool) :
    Safety.countWords p + Safety.countWords (fun d => !p d) = 65536 := by
  have h := List.length_eq_countP_add_countP (fun n => p (decode (BitVec.ofNat 16 n))) (l := List.range 65536)
  simp only [List.length_range, Bool.not_eq_true, Bool.decide_eq_false] at h
  exact h.symm

/-- R82's number of legal words. -/
theorem countWords_legal {p : Except DecodeError Instr → Bool} (herr : ∀ e, p (.error e) = false)
    (hok : ∀ i, p (.ok i) = true) : Safety.countWords p = 673 := by
  rw [countWords_eq_length nodup_legalCommands herr fun i => by simp [hok]]
  simp [legalCommands]

/-- R82's number of illegal words: all the others. -/
theorem countWords_illegal {p : Except DecodeError Instr → Bool} (herr : ∀ e, p (.error e) = true)
    (hok : ∀ i, p (.ok i) = false) : Safety.countWords p = 64863 := by
  have htotal := countWords_add_countWords_not p
  rw [countWords_legal (p := fun d => !p d) (by simp [herr]) (by simp [hok])] at htotal
  omega

/-- Settles O5, each number by listing the commands that are counted. -/
theorem encodingCounts : Obligations.EncodingCounts := by
  unfold Obligations.EncodingCounts
  refine ⟨?_, ?_, ?_, ?_, ?_, ?_, ?_, countWords_legal (fun _ => rfl) fun _ => rfl,
    countWords_illegal (fun _ => rfl) fun _ => rfl⟩
  · refine countWords_eq_length (l := [.cfgp]) (List.nodup_singleton _) (fun _ => rfl) fun i => ?_
    cases i <;> simp
  · refine countWords_setp (fun _ => rfl) fun i => ?_
    cases i <;> simp
  · refine countWords_setp (fun _ => rfl) fun i => ?_
    cases i <;> simp; omega
  · refine countWords_indexed seta_injective2 (n := 128) (fun _ => rfl) fun i => ?_
    cases i <;> simp
  · refine countWords_indexed seta_injective2 (n := 101) (fun _ => rfl) fun i => ?_
    cases i <;> simp; omega
  · refine countWords_indexed led_injective2 (n := 8) (fun _ => rfl) fun i => ?_
    cases i <;> simp
  · refine countWords_indexed led_injective2 (n := 5) (fun _ => rfl) fun i => ?_
    cases i <;> simp; omega

/-! ## The worked encodings (R85) -/

/-- Settles O6. -/
theorem workedEncodings : Obligations.WorkedEncodings := by
  unfold Obligations.WorkedEncodings
  exact ⟨by decide, by decide⟩

/-! ## Pseudo-instructions (R84) -/

theorem Color.code_lt (c : Color) : c.code < 8 := by cases c <;> decide

namespace Machine

theorem expandFans_of_le {f1 f2 f3 f4 big : Nat} (h1 : f1 ≤ 100) (h2 : f2 ≤ 100) (h3 : f3 ≤ 100) (h4 : f4 ≤ 100)
    (hbig : big ≤ 100) :
    expandFans f1 f2 f3 f4 big = some [.seta 0 f1, .seta 1 f2, .seta 2 f3, .seta 3 f4, .setp big] := by
  simp [expandFans, h1, h2, h3, h4, hbig]

theorem expandFans_eq_none {f1 f2 f3 f4 big : Nat} :
    expandFans f1 f2 f3 f4 big = none ↔ 100 < f1 ∨ 100 < f2 ∨ 100 < f3 ∨ 100 < f4 ∨ 100 < big := by
  simp only [expandFans, ite_eq_right_iff, reduceCtorEq, imp_false]
  omega

/-- The command has operands within the source's range, and is not CFGP (R84). -/
def OperandsInRange : Instr → Prop
  | .cfgp => False
  | .setp pct => pct ≤ 100
  | .seta _ pct => pct ≤ 100
  | .led _ col => ∃ c : Color, col = c.code

theorem wf_of_operandsInRange {i : Instr} (h : OperandsInRange i) : i.wf = true := by
  cases i with
  | cfgp => rfl
  | setp pct => exact Instr.wf_setp.mpr (Nat.lt_of_le_of_lt h (by decide))
  | seta ch pct => exact Instr.wf_seta.mpr (Nat.lt_of_le_of_lt h (by decide))
  | led ind col =>
    obtain ⟨c, rfl⟩ := h
    exact Instr.wf_led.mpr c.code_lt

theorem operandsInRange_expandFans {f1 f2 f3 f4 big : Nat} {is : List Instr}
    (h : expandFans f1 f2 f3 f4 big = some is) : ∀ i ∈ is, OperandsInRange i := by
  unfold expandFans at h
  split at h
  · next hle =>
    obtain ⟨h1, h2, h3, h4, hbig⟩ := hle
    cases h
    simp [OperandsInRange, h1, h2, h3, h4, hbig]
  · cases h

theorem operandsInRange_expandLeds (c1 c2 c3 c4 : Color) : ∀ i ∈ expandLeds c1 c2 c3 c4, OperandsInRange i := by
  simp [expandLeds, OperandsInRange]

/-- BOOT's CFGP is the one command of an expansion with no operand (R84). -/
theorem eq_boot_or_operandsInRange {p : Pseudo} {is : List Instr} (h : expandPseudo p = some is) {i : Instr}
    (hi : i ∈ is) : (i = .cfgp ∧ p = .boot) ∨ OperandsInRange i := by
  cases p with
  | fans f1 f2 f3 f4 big => exact .inr (operandsInRange_expandFans h i hi)
  | leds c1 c2 c3 c4 =>
    cases h
    exact .inr (operandsInRange_expandLeds c1 c2 c3 c4 i hi)
  | all f1 f2 f3 f4 big c1 c2 c3 c4 =>
    obtain ⟨fans, hfans, rfl⟩ := Option.map_eq_some_iff.mp h
    rcases List.mem_append.mp hi with hi | hi
    · exact .inr (operandsInRange_expandFans hfans i hi)
    · exact .inr (operandsInRange_expandLeds c1 c2 c3 c4 i hi)
  | boot =>
    cases h
    rcases List.mem_append.mp hi with hi | hi
    · rcases List.mem_cons.mp hi with rfl | hi
      · exact .inl ⟨rfl, rfl⟩
      · have hzero : ∀ i ∈ [Instr.setp 0, .seta 0 0, .seta 1 0, .seta 2 0, .seta 3 0], OperandsInRange i := by
          simp [OperandsInRange]
        exact .inr (hzero i hi)
    · exact .inr (operandsInRange_expandLeds _ _ _ _ i hi)

/-- Settles O8: an expansion is refused where its FANS part is, and else holds commands in range. -/
theorem pseudoExpansionsInRange : Obligations.PseudoExpansionsInRange := by
  unfold Obligations.PseudoExpansionsInRange
  refine ⟨fun f1 f2 f3 f4 big h1 h2 h3 h4 hbig => ?_, fun _ _ _ _ => rfl, rfl, fun p => ?_, fun p is h i hi => ?_⟩
  · have hfans := expandFans_of_le h1 h2 h3 h4 hbig
    exact ⟨hfans, fun c1 c2 c3 c4 => by rw [expandPseudo, hfans]; rfl⟩
  · cases p with
    | fans => exact expandFans_eq_none
    | leds => simp [expandPseudo]
    | all => exact Option.map_eq_none_iff.trans expandFans_eq_none
    | boot => simp [expandPseudo]
  · rcases eq_boot_or_operandsInRange h hi with ⟨rfl, rfl⟩ | hr
    · exact ⟨rfl, rfl⟩
    · refine ⟨wf_of_operandsInRange hr, ?_⟩
      cases i with
      | cfgp => exact hr.elim
      | _ => exact hr

/-! ## LED with an invalid colour code (R125, R142) -/

theorem exec_led_of_invalid (s : State) (ind : Fin 4) {col : Nat} (h : 4 < col) :
    exec (.led ind col) s = .next (s.raise .badColor) := by
  simp only [exec, execLed, colorOfCode_eq_none.mpr h]

/-- Settles O24. -/
theorem ledInvalidColourFaults : Obligations.LedInvalidColourFaults := by
  unfold Obligations.LedInvalidColourFaults
  exact fun s ind col h => exec_led_of_invalid s ind h

end Machine

end Sys2Proof
end

section
/-! The primary PWM channel (40_primary_pwm.md): the laws of the compare value (R93 to R95), what CFGP and SETP answer
(R90 to R92), the primary pin (R98, R99), and the carrier cycle (R96, R97, R101). -/

namespace Sys2Proof.Machine

/-! ## Rounding a number of hundredths (R10, R93) -/

theorem hundredthsHalfUp_mono {a b : Nat} (h : a ≤ b) : hundredthsHalfUp a ≤ hundredthsHalfUp b :=
  Nat.div_le_div_right (Nat.add_le_add_right h 50)

/-- Two parts of a whole are both rounded up at a tie; else one is rounded up and one down, or neither is rounded. -/
theorem hundredthsHalfUp_add {a b n : Nat} (h : a + b = n * 100) :
    hundredthsHalfUp a + hundredthsHalfUp b = if a % 100 = 50 then n + 1 else n := by
  unfold hundredthsHalfUp
  split <;> omega

theorem hundredthsHalfEven_eq_halfUp {a : Nat} (h : a % 100 ≠ 50) : hundredthsHalfEven a = hundredthsHalfUp a := by
  unfold hundredthsHalfEven hundredthsHalfUp
  split <;> omega

theorem hundredthsHalfEven_of_tie {a : Nat} (h : a % 100 = 50) :
    hundredthsHalfEven a = a / 100 + a / 100 % 2 := by
  unfold hundredthsHalfEven
  split <;> omega

/-- At a tie the integer parts of the two parts add up to one less than the whole, so the parts are rounded opposite
ways where the whole is even, and the same way where it is odd. -/
theorem hundredthsHalfEven_add_of_tie {a b n : Nat} (h : a + b = n * 100) (ha : a % 100 = 50) :
    (n % 2 = 0 → hundredthsHalfEven a + hundredthsHalfEven b = n) ∧
    (n % 2 = 1 → hundredthsHalfEven a + hundredthsHalfEven b = n - 1 ∨
      hundredthsHalfEven a + hundredthsHalfEven b = n + 1) := by
  have hparts : a / 100 + b / 100 + 1 = n := by omega
  rw [hundredthsHalfEven_of_tie ha, hundredthsHalfEven_of_tie (by omega)]
  omega

theorem hundredthsTrunc_ne_halfUp_iff (a : Nat) : hundredthsTrunc a ≠ hundredthsHalfUp a ↔ 50 ≤ a % 100 := by
  unfold hundredthsTrunc hundredthsHalfUp
  omega

/-! ## The laws of the compare value (R93, R94) -/

/-- A percent and its inverse split the cycle. -/
theorem mul_add_mul_inverse (n : Nat) {f : Nat} (hf : f ≤ 100) : n * f + n * (100 - f) = n * 100 := by
  rw [← Nat.mul_add, Nat.add_sub_cancel' hf]

theorem cmpValue_inverse (mode : PriRound) (n : Nat) {f : Nat} (hf : f ≤ 100) :
    cmpValue mode n (100 - f) = roundPrimary mode (n * f) := by
  rw [cmpValue, Nat.sub_sub_self hf]

/-- R94 (d), with its exception. -/
theorem cmpValue_halfUp_add_inverse (n : Nat) {f : Nat} (hf : f ≤ 100) :
    cmpValue .halfUp n f + cmpValue .halfUp n (100 - f) = if n * f % 100 = 50 then n + 1 else n := by
  rw [Nat.add_comm, cmpValue_inverse .halfUp n hf]
  exact hundredthsHalfUp_add (mul_add_mul_inverse n hf)

theorem cmpValue_halfEven_add_inverse (n : Nat) {f : Nat} (hf : f ≤ 100) (h : n * f % 100 ≠ 50) :
    cmpValue .halfEven n f + cmpValue .halfEven n (100 - f) = n := by
  have hsum := mul_add_mul_inverse n hf
  rw [Nat.add_comm, cmpValue_inverse .halfEven n hf]
  change hundredthsHalfEven (n * f) + hundredthsHalfEven (n * (100 - f)) = n
  rw [hundredthsHalfEven_eq_halfUp h, hundredthsHalfEven_eq_halfUp (by omega), hundredthsHalfUp_add hsum, if_neg h]

theorem cmpValue_halfEven_add_inverse_of_tie (n : Nat) {f : Nat} (hf : f ≤ 100) (h : n * f % 100 = 50) :
    (n % 2 = 0 → cmpValue .halfEven n f + cmpValue .halfEven n (100 - f) = n) ∧
    (n % 2 = 1 → cmpValue .halfEven n f + cmpValue .halfEven n (100 - f) = n - 1 ∨
      cmpValue .halfEven n f + cmpValue .halfEven n (100 - f) = n + 1) := by
  rw [Nat.add_comm, cmpValue_inverse .halfEven n hf]
  exact hundredthsHalfEven_add_of_tie (mul_add_mul_inverse n hf) h

theorem cmpValue_zero (mode : PriRound) {n : Nat} (hn : n ≤ 65535) : cmpValue mode n 0 = n := by
  change roundPrimary mode (n * 100) = n
  cases mode with
  | halfUp => simp only [roundPrimary, hundredthsHalfUp]; omega
  | halfEven => rw [roundPrimary, hundredthsHalfEven_eq_halfUp (by omega), hundredthsHalfUp]; omega
  | binary64 => rw [roundPrimary, ieeeHundredth_eq (by omega), hundredthsHalfUp]; omega
  | trunc => simp only [roundPrimary, hundredthsTrunc]; omega

theorem cmpValue_hundred (mode : PriRound) (n : Nat) : cmpValue mode n 100 = 0 := by
  change roundPrimary mode 0 = 0
  cases mode <;> decide

theorem cmpValue_halfUp_antitone (n : Nat) {p q : Nat} (h : p ≤ q) : cmpValue .halfUp n q ≤ cmpValue .halfUp n p :=
  hundredthsHalfUp_mono (Nat.mul_le_mul_left n (Nat.sub_le_sub_left h 100))

theorem tie_of_odd {n : Nat} (h : n % 2 = 1) : n * 50 % 100 = 50 := by omega

theorem tie_of_mod_four_eq_two {n : Nat} (h : n % 4 = 2) : n * 25 % 100 = 50 := by omega

/-- A multiple of a number divisible by 4 leaves a remainder divisible by 4, and 50 is not. -/
theorem mod_four_ne_zero_of_tie {n f : Nat} (h : n * f % 100 = 50) : n % 4 ≠ 0 := by
  intro hn
  have hdvd : 4 ∣ n * f := Nat.dvd_mul_right_of_dvd (Nat.dvd_of_mod_eq_zero hn) f
  omega

theorem exists_tie_iff (n : Nat) : (∃ f, f ≤ 100 ∧ n * f % 100 = 50) ↔ n % 4 ≠ 0 := by
  refine ⟨fun ⟨f, _, hf⟩ => mod_four_ne_zero_of_tie hf, fun h => ?_⟩
  rcases Nat.mod_two_eq_zero_or_one n with heven | hodd
  · exact ⟨25, by decide, tie_of_mod_four_eq_two (by omega)⟩
  · exact ⟨50, by decide, tie_of_odd hodd⟩

theorem cmpValue_halfUp_symmetric_iff (n : Nat) :
    (∀ f, f ≤ 100 → cmpValue .halfUp n f + cmpValue .halfUp n (100 - f) = n) ↔ n % 4 = 0 := by
  rw [← not_iff_not, ← ne_eq (n % 4), ← exists_tie_iff]
  push Not
  refine exists_congr fun f => and_congr_right fun hf => ?_
  rw [cmpValue_halfUp_add_inverse n hf]
  split <;> simp [*]

/-- Settles O33: a percent and its inverse split the cycle, and only a tie rounds both parts the same way. -/
theorem compareValueLaws : Obligations.CompareValueLaws := by
  unfold Obligations.CompareValueLaws
  intro n _ hn
  refine ⟨⟨cmpValue_zero _ hn, cmpValue_hundred _ n⟩, fun p q hpq _ => cmpValue_halfUp_antitone n hpq,
    fun p _ => cmpValue_le _ hn p, fun f hf h => ?_, fun f hf h => ?_, exists_tie_iff n, tie_of_odd,
    tie_of_mod_four_eq_two, ?_, cmpValue_halfUp_symmetric_iff n, fun heven f hf => ?_,
    fun hodd f hf => ⟨cmpValue_halfEven_add_inverse n hf,
      fun h => (cmpValue_halfEven_add_inverse_of_tie n hf h).2 hodd⟩⟩
  · rw [cmpValue_halfUp_add_inverse n hf, if_neg h]
  · rw [cmpValue_halfUp_add_inverse n hf, if_pos h]
  · rintro rfl f hf
    omega
  · by_cases h : n * f % 100 = 50
    · exact (cmpValue_halfEven_add_inverse_of_tie n hf h).1 heven
    · exact cmpValue_halfEven_add_inverse n hf h

/-- Settles O34, by the remainder of `PERIOD * (100 - p)` in hundredths. -/
theorem compareValueModes : Obligations.CompareValueModes := by
  unfold Obligations.CompareValueModes
  intro n p _ hn hp
  have hle : n * (100 - p) ≤ n * 100 := Nat.mul_le_mul_left n (Nat.sub_le 100 p)
  refine ⟨fun mode => cmpValue_le mode hn p, ieeeHundredth_eq (by omega), fun hne => ?_,
    hundredthsTrunc_ne_halfUp_iff _⟩
  have htie : n * (100 - p) % 100 = 50 := by
    by_contra h
    exact hne (hundredthsHalfEven_eq_halfUp h)
  exact ⟨htie, mod_four_ne_zero_of_tie htie⟩

/-- The compare value is within half a clock of the inverted duty's share of the cycle: in hundredths of a clock. -/
theorem cmpValue_halfUp_near (n : Nat) {p : Nat} (hp : p ≤ 100) :
    100 * cmpValue .halfUp n p + n * p ≤ n * 100 + 50 ∧ n * 100 ≤ 100 * cmpValue .halfUp n p + n * p + 50 := by
  have hsum := mul_add_mul_inverse n hp
  rw [cmpValue_halfUp]
  omega

/-- Settles O37: the error is at most 50 hundredths of one clock of the cycle. -/
theorem effectivePrimaryDuty : Obligations.EffectivePrimaryDuty := by
  unfold Obligations.EffectivePrimaryDuty
  intro n p h1 _ hp
  obtain ⟨hupper, hlower⟩ := cmpValue_halfUp_near n hp
  generalize cmpValue .halfUp n p = c at hupper hlower ⊢
  have hpos : (0 : Rat) < n := by exact_mod_cast h1
  have hupper' : 100 * (c : Rat) + n * p ≤ n * 100 + 50 := by exact_mod_cast hupper
  have hlower' : (n : Rat) * 100 ≤ 100 * c + n * p + 50 := by exact_mod_cast hlower
  have herror : ((n : Rat) - c) / n - p / 100 = (n * 100 - 100 * c - n * p) / 50 * (1 / (2 * n)) := by
    field_simp
    ring
  have hhalf : (0 : Rat) ≤ 1 / (2 * n) := by positivity
  rw [herror, abs_mul, abs_of_nonneg hhalf]
  refine mul_le_of_le_one_left hhalf (abs_le.mpr ⟨?_, ?_⟩) <;> linarith

/-! ## CFGP and SETP (R90 to R92) -/

theorem exec_cfgp_of_stopped {s : State} (h : s.run = false) :
    exec .cfgp s = .next (s.startTimer s.params.period) := by
  simp [exec, execCfgp, h]

theorem exec_setp_of_stopped {s : State} (h : s.run = false) (pct : Nat) :
    exec (.setp pct) s = .next (s.raise .notConfigured) := by
  simp only [exec, execSetp, h, Bool.not_false, if_true]

theorem exec_setp_of_invalid {s : State} (h : s.run = true) {pct : Nat} (hp : 100 < pct) :
    exec (.setp pct) s = .next (s.raise .range) := by
  simp [exec, execSetp, h, hp]

theorem priOut_of_driven {s : State} (h : s.oe = true) :
    priOut s = Pin.ofBool (s.cnt.ult (s.cmpAct.read (Config.freeCmpAct s.draws))) := by simp [priOut, h]

/-- `TOP` holds `PERIOD - 1` uncut (R26, R90). -/
theorem toNat_periodPred (p : Params) : (BitVec.ofNat 16 (p.period - 1)).toNat = p.period - 1 := by
  have := p.period_le
  rw [BitVec.toNat_ofNat]
  exact Nat.mod_eq_of_lt (by omega)

/-- Settles O17. -/
theorem cfgpStartsTimer : Obligations.CfgpStartsTimer := by
  unfold Obligations.CfgpStartsTimer
  intro s hstop
  refine ⟨s.startTimer s.params.period, exec_cfgp_of_stopped hstop, rfl, toNat_periodPred s.params, ?_⟩
  rw [priOut_of_driven (by simp [State.oe])]
  exact Pin.ofBool_eq_low_or_high _

/-- Settles O18. -/
theorem secondCfgpFaults : Obligations.SecondCfgpFaults := by
  unfold Obligations.SecondCfgpFaults
  exact fun s hrun => exec_cfgp_of_run hrun

/-- Settles O19. -/
theorem setpWritesCompareValue : Obligations.SetpWritesCompareValue := by
  unfold Obligations.SetpWritesCompareValue
  intro s pct hrun hp
  have hle := s.params.period_le
  refine ⟨_, exec_setp_of_run hrun hp, ?_⟩
  rw [toNat_cmpValue]
  refine ⟨rfl, fun hmode => by rw [hmode, cmpValue_halfUp], cmpValue_le _ hle pct, ?_, ?_⟩
  · rintro rfl
    exact cmpValue_zero _ hle
  · rintro rfl
    exact cmpValue_hundred _ _

/-- Settles O20. -/
theorem setpFaults : Obligations.SetpFaults := by
  unfold Obligations.SetpFaults
  exact fun s pct => ⟨fun hstop => exec_setp_of_stopped hstop pct, fun hrun hp => exec_setp_of_invalid hrun hp⟩

end Sys2Proof.Machine

namespace Sys2Proof.Safety

open Sys2Proof.Machine

/-! ## The counter within its cycle (R40) -/

/-- `TCFG` holds 0b0000 or 0b0111, so the pin is driven only by a running timer (R40 (a)). -/
theorem PrimaryInv.run_of_oe {s : State} (h : PrimaryInv s) (hoe : s.oe = true) : s.run = true := by
  rcases h.tcfgLegal with ht | ht
  · simp [State.oe, ht] at hoe
  · simp [State.run, ht]

theorem PrimaryInv.cnt_lt_period {s : State} (h : PrimaryInv s) (hrun : s.run = true) :
    s.cnt.toNat < s.params.period := by
  obtain ⟨-, htop⟩ := h.runningTop hrun
  have hcnt := h.runningCnt hrun
  have hpos := s.params.period_pos
  omega

/-- The clocks left before the step that wraps, and that step, are the rest of the cycle. -/
theorem PrimaryInv.clocksLeft_add_one {s : State} (h : PrimaryInv s) (hrun : s.run = true) :
    clocksLeft s + 1 = s.params.period - s.cnt.toNat := by
  obtain ⟨-, htop⟩ := h.runningTop hrun
  have hlt := h.cnt_lt_period hrun
  rw [clocksLeft]
  omega

end Sys2Proof.Safety

namespace Sys2Proof.Machine

open Sys2Proof.Safety

/-! ## The primary pin (R98, R99) -/

theorem priOut_of_fixed {s : State} (hoe : s.oe = true) (hu : s.cmpAct.unspec = false) :
    priOut s = Pin.ofBool (decide (s.cnt.toNat < s.cmpAct.held.toNat)) := by
  rw [priOut_of_driven hoe, Elem.read_of_fixed hu, BitVec.ult]

/-- Settles O38. -/
theorem primaryPinRule : Obligations.PrimaryPinRule := by
  unfold Obligations.PrimaryPinRule
  intro s
  refine ⟨priOut_of_undriven, fun hoe hu => ?_, fun hoe _ => ?_⟩
  · have hhigh : s.cnt.toNat < s.cmpAct.held.toNat → priOut s = .high := fun hlt => by
      rw [priOut_of_fixed hoe hu, decide_eq_true hlt]
      rfl
    have hlow : s.cmpAct.held.toNat ≤ s.cnt.toNat → priOut s = .low := fun hle => by
      rw [priOut_of_fixed hoe hu, decide_eq_false (Nat.not_lt.mpr hle)]
      rfl
    refine ⟨hhigh, hlow, fun h0 => hlow (by simp [h0]), fun hinv hperiod => hhigh ?_⟩
    exact (hinv.cnt_lt_period (hinv.run_of_oe hoe)).trans_le hperiod
  · rw [priOut_of_driven hoe]
    exact Pin.ofBool_eq_low_or_high _

theorem Pin.ofBool_beq_high (b : Bool) : (Pin.ofBool b == .high) = b := by cases b <;> rfl

theorem Pin.ofBool_beq_low (b : Bool) : (Pin.ofBool b == .low) = !b := by cases b <;> rfl

/-- The numbers below `c` among the first `n`. -/
theorem countP_range_lt (c n : Nat) : (List.range n).countP (fun k => decide (k < c)) = min c n := by
  induction n with
  | zero => simp
  | succ n ih =>
    rw [List.range_succ, List.countP_append, ih, List.countP_singleton]
    simp only [decide_eq_true_eq]
    split <;> omega

theorem countP_range_not_lt (c n : Nat) : (List.range n).countP (fun k => !decide (k < c)) = n - min c n := by
  have h := List.length_eq_countP_add_countP (fun k => decide (k < c)) (l := List.range n)
  simp only [List.length_range, countP_range_lt, decide_eq_true_eq, decide_not] at h
  omega

/-- The pin at a counter value of the cycle. -/
theorem priOut_at_count {s : State} {c : BitVec 16} (hoe : s.oe = true) (hc : s.cmpAct = ⟨c, false⟩) {k : Nat}
    (hk : k < 65536) : priOut { s with cnt := BitVec.ofNat 16 k } = Pin.ofBool (decide (k < c.toNat)) := by
  have hoe' : State.oe { s with cnt := BitVec.ofNat 16 k } = true := hoe
  rw [priOut_of_fixed hoe' (by rw [hc]), hc, BitVec.toNat_ofNat, Nat.mod_eq_of_lt hk]

/-- A cycle of `n` clocks with compare value `c` in use shows the pin high at `min(c, n)` counter values (R99). -/
theorem countP_priOut {s : State} {c : BitVec 16} (hoe : s.oe = true) (hc : s.cmpAct = ⟨c, false⟩) {n : Nat}
    (hn : n ≤ 65535) :
    (List.range n).countP (fun k => priOut { s with cnt := BitVec.ofNat 16 k } == .high) = min c.toNat n ∧
    (List.range n).countP (fun k => priOut { s with cnt := BitVec.ofNat 16 k } == .low) = n - min c.toNat n := by
  have hpin : ∀ k ∈ List.range n,
      priOut { s with cnt := BitVec.ofNat 16 k } = Pin.ofBool (decide (k < c.toNat)) := fun k hk =>
    priOut_at_count hoe hc ((List.mem_range.mp hk).trans_le (by omega))
  rw [← countP_range_not_lt, ← countP_range_lt]
  exact ⟨List.countP_congr fun k hk => by rw [hpin k hk, Pin.ofBool_beq_high],
    List.countP_congr fun k hk => by rw [hpin k hk, Pin.ofBool_beq_low]⟩

/-- Settles O39: a compare value is at most `PERIOD` in every mode, so the minimum is the compare value. -/
theorem primaryHighTime : Obligations.PrimaryHighTime := by
  unfold Obligations.PrimaryHighTime
  intro s c n hoe hc hn
  obtain ⟨hhigh, hlow⟩ := countP_priOut hoe hc hn
  refine ⟨hhigh, hlow, fun mode p hp => ?_⟩
  have hmin : min c.toNat n = cmpValue mode n p := by
    rw [hp]
    exact Nat.min_eq_left (cmpValue_le mode hn p)
  rw [← hmin]
  exact ⟨hhigh, hlow⟩

/-! ## The CARRIER step (R96) -/

theorem carrierStep_of_top {s : State} (hu : s.top.unspec = false) (h : s.cnt = s.top.held) :
    carrierStep s = (s.writeCnt 0).loadCmpAct := by
  rw [carrierStep, Elem.read_of_fixed hu, if_pos h]

theorem carrierStep_of_ne_top {s : State} (hu : s.top.unspec = false) (h : s.cnt ≠ s.top.held) :
    carrierStep s = s.writeCnt (s.cnt + 1) := by
  rw [carrierStep, Elem.read_of_fixed hu, if_neg h]

/-- Only CFGP writes `CNT`, and it writes 0 (R90). -/
theorem CommandResult.cnt_eq_zero {s t : State} {i : Instr} (h : CommandResult s i t) (h0 : s.cnt = 0) : t.cnt = 0 := by
  cases h with
  | faulted => exact h0
  | configured => rfl
  | primary => exact h0
  | auxiliary => rwa [State.setAux_eq]
  | colour => exact h0

/-- A stopped timer's `CNT` stays 0 in every step (R96). -/
theorem StepResult.cnt_eq_zero {s t : State} {a : Agent} (h : StepResult s a t) (hstop : s.run = false)
    (h0 : s.cnt = 0) : t.cnt = 0 := by
  cases h with
  | carrier hrun => simp [hstop] at hrun
  | auxclk => rwa [auxclkStep_cnt]
  | command _ _ hc _ => exact hc.cnt_eq_zero h0
  | illegal => exact h0
  | firstByte => exact h0
  | reset => rfl

/-- Settles O44. -/
theorem carrierStepRule : Obligations.CarrierStepRule := by
  unfold Obligations.CarrierStepRule
  intro s
  refine ⟨Iff.rfl, fun t hstop h0 h => (StepResult.of_step h).cnt_eq_zero hstop h0, fun hturn hu => ?_⟩
  rw [step_of_nextTurn hturn, agentStep]
  refine ⟨fun htop => ?_, fun hne => ⟨?_, fun hle => ?_⟩⟩
  · rw [carrierStep_of_top (s := s.begin s.nextTurn.2) hu htop]
    rfl
  · rw [carrierStep_of_ne_top (s := s.begin s.nextTurn.2) hu hne]
    rfl
  · bv_omega

end Sys2Proof.Machine

namespace Sys2Proof.Safety

open Sys2Proof.Machine

/-! ## The carrier cycle (R97, R101) -/

/-- Up to `TOP` each `CARRIER` step adds one to `CNT` and does nothing else. -/
theorem Counting.iterate_carrierStep {s : State} (h : Counting s) {k : Nat} (hk : k ≤ clocksLeft s) :
    carrierStep^[k] s = s.writeCnt (BitVec.ofNat 16 (s.cnt.toNat + k)) := by
  obtain ⟨hu, hle⟩ := h
  induction k with
  | zero => simp [State.writeCnt]
  | succ k ih =>
    have hlt : s.cnt.toNat + k < s.top.held.toNat := by
      rw [clocksLeft] at hk
      omega
    have hne : BitVec.ofNat 16 (s.cnt.toNat + k) ≠ s.top.held := by bv_omega
    rw [Function.iterate_succ_apply', ih (by omega),
      carrierStep_of_ne_top (s := s.writeCnt (BitVec.ofNat 16 (s.cnt.toNat + k))) hu hne]
    exact congrArg s.writeCnt (BitVec.ofNat_add _ 1).symm

/-- The step after `TOP` returns `CNT` to 0 with `CMP` in use. -/
theorem Counting.iterate_carrierStep_wrap {s : State} (h : Counting s) :
    carrierStep^[clocksLeft s + 1] s = (s.writeCnt 0).loadCmpAct := by
  have htop : BitVec.ofNat 16 (s.cnt.toNat + clocksLeft s) = s.top.held := by
    rw [clocksLeft, Nat.add_sub_cancel' h.2, BitVec.ofNat_toNat, BitVec.setWidth_eq]
  rw [Function.iterate_succ_apply', h.iterate_carrierStep le_rfl, htop]
  exact carrierStep_of_top (s := s.writeCnt s.top.held) h.1 rfl

/-- Settles O45: the step that wraps is one more than the clocks left. -/
theorem carrierCycleLength : Obligations.CarrierCycleLength := by
  unfold Obligations.CarrierCycleLength
  intro s hinv hrun
  have hcount := hinv.counting hrun
  have hlt := hinv.cnt_lt_period hrun
  have hleft := hinv.clocksLeft_add_one hrun
  have hwrap := hcount.iterate_carrierStep_wrap
  rw [hleft] at hwrap
  refine ⟨fun k hk => hcount.iterate_carrierStep (by omega), hwrap, fun h0 => ?_⟩
  calc carrierStep^[s.params.period] s = (s.writeCnt 0).loadCmpAct := by simpa [h0] using hwrap
    _ = { s with cmpAct := s.cmp } := by
      rw [← h0]
      rfl

/-- Settles O46: SETP leaves the counter where it is in the cycle, and the wrap loads what SETP wrote. -/
theorem setpReachesPinAtWrap : Obligations.SetpReachesPinAtWrap := by
  unfold Obligations.SetpReachesPinAtWrap
  intro s pct hinv hrun hp
  have hcount : ∀ v, Counting (s.writeCmp v) := fun _ => hinv.counting hrun
  have hwrap : ∀ v, carrierStep^[clocksLeft s + 1] (s.writeCmp v) = ((s.writeCmp v).writeCnt 0).loadCmpAct :=
    fun v => (hcount v).iterate_carrierStep_wrap
  refine ⟨_, clocksLeft s + 1, exec_setp_of_run hrun hp, Nat.succ_pos _, ?_, fun k hk => ?_, ?_⟩
  · rw [hinv.clocksLeft_add_one hrun]
    exact Nat.sub_le _ _
  · rw [(hcount _).iterate_carrierStep (Nat.le_of_lt_succ hk)]
    rfl
  · rw [hwrap]
    exact ⟨rfl, rfl, toNat_cmpValue _ _⟩

end Sys2Proof.Safety
end

section
/-! The auxiliary PWM channels (41_aux_pwm.md): the laws of the native duty (R111 to R113), what SETA answers (R110),
the auxiliary pin over a cycle (R117), and the aux cycle (R114, R115, R118). -/

namespace Sys2Proof.Machine

/-- Settles O14. -/
theorem blockNeverStops : Obligations.BlockNeverStops := by
  unfold Obligations.BlockNeverStops
  refine ⟨fun i s => ?_, fun s => ?_⟩
  · obtain ⟨t, ht, -⟩ := exec_result i s
    exact ⟨t, ht⟩
  · obtain ⟨t, ht, -⟩ := step_result s
    exact ⟨t, ht⟩

/-! ## The native duty under HALF_UP (R113) -/

theorem auxValue_zero (mode : AuxRound) : auxValue mode 0 = 0 := by cases mode <;> decide

theorem auxValue_hundred (mode : AuxRound) : auxValue mode 100 = 255 := by cases mode <;> decide

/-- A step of one percent adds 2.55 to the exact value, which is more than the rounding can take away. -/
theorem auxValue_halfUp_strictMono : StrictMono (auxValue .halfUp) := by
  refine strictMono_nat_of_lt_succ fun p => ?_
  rw [auxValue_halfUp, auxValue_halfUp]
  omega

theorem auxValue_halfUp_near (p : Nat) : |((auxValue .halfUp p : Nat) : Rat) - 255 / 100 * (p : Rat)| ≤ 1 / 2 := by
  have hupper : 100 * auxValue .halfUp p ≤ 255 * p + 50 := Nat.mul_div_le _ 100
  have hlower : 255 * p ≤ 100 * auxValue .halfUp p + 50 := by
    rw [auxValue_halfUp]
    omega
  have hupper' : 100 * (auxValue .halfUp p : Rat) ≤ 255 * p + 50 := by exact_mod_cast hupper
  have hlower' : 255 * (p : Rat) ≤ 100 * auxValue .halfUp p + 50 := by exact_mod_cast hlower
  refine abs_le.mpr ⟨?_, ?_⟩ <;> linarith

/-- Settles O35. -/
theorem nativeDutyLaws : Obligations.NativeDutyLaws := by
  unfold Obligations.NativeDutyLaws
  exact ⟨⟨auxValue_zero _, auxValue_hundred _⟩, fun p q hpq _ => auxValue_halfUp_strictMono hpq,
    fun p _ => auxValue_halfUp_near p⟩

/-! ## Where the rounding modes disagree (R112) -/

/-- The ties are the percents that are odd multiples of 10. -/
theorem nativeDuty_tie_iff (p : Nat) : 255 * p % 100 = 50 ↔ p % 20 = 10 := by omega

/-- Rounding a value below `2 ^ m` to a significand of 24 bits or more moves it by at most `2 ^ (m - 24)`. -/
theorem ieeeRound_error_le {prec num den m : Nat} (hprec : 24 ≤ prec) (hm : num * ieeeScale / den < 2 ^ m) :
    ieeeRound prec num den ≤ num * ieeeScale / den + 2 ^ (m - 24) ∧
      num * ieeeScale / den ≤ ieeeRound prec num den + 2 ^ (m - 24) := by
  obtain ⟨e, he, hle, hge, -⟩ := ieeeRound_near prec num den
  have hlog : Nat.log2 (num * ieeeScale / den) ≤ m - 1 := by
    rcases Nat.eq_zero_or_pos (num * ieeeScale / den) with h0 | h0
    · simp [h0]
    · exact Nat.le_sub_one_of_lt ((Nat.log2_lt h0.ne').mpr hm)
  have hulp : 2 ^ e ≤ 2 ^ (m - 24) := Nat.pow_le_pow_right (by decide) (by omega)
  omega

/-- Both binary modes give the HALF_UP value where there is no tie: the exact product is then 1/100 or more from one,
and rounding 2.55 (below 2 ^ 2) and the product (below 2 ^ 8) moves it by less. -/
theorem ieeeTimes255_of_not_tie {prec p : Nat} (hprec : 24 ≤ prec) (hp : p ≤ 100) (h : 255 * p % 100 ≠ 50) :
    ieeeTimes255 prec p = hundredthsHalfUp (255 * p) := by
  obtain ⟨hcle, hcge⟩ := ieeeRound_error_le (num := 255) (den := 100) (m := 130) hprec (by decide)
  unfold ieeeTimes255 ieeeNearestInt hundredthsHalfUp
  generalize ieeeRound prec 255 100 = c at hcle hcge ⊢
  have herr := ieeeRound_error_le (num := p * c) (den := ieeeScale) (m := 136) hprec
  rw [Nat.mul_div_cancel _ (by decide)] at herr
  have hxle := Nat.mul_le_mul_left p hcle
  have hxge := Nat.mul_le_mul_left p hcge
  rw [Nat.mul_add] at hxge
  generalize ieeeRound prec (p * c) ieeeScale = v at herr ⊢
  simp only [ieeeScale] at *
  obtain ⟨hvle, hvge⟩ := herr (by omega)
  obtain hbelow | habove : 255 * p % 100 < 50 ∨ 50 < 255 * p % 100 := Nat.lt_or_gt_of_ne h
  · have hdown : (255 * p + 50) / 100 = 255 * p / 100 := by omega
    rw [hdown, Nat.div_eq_iff (by decide)]
    omega
  · have hup : (255 * p + 50) / 100 = 255 * p / 100 + 1 := by omega
    rw [hup, Nat.div_eq_iff (by decide)]
    omega

theorem auxValue_eq_halfUp_of_not_tie {p : Nat} (hp : p ≤ 100) (h : 255 * p % 100 ≠ 50) :
    auxValue .halfEven p = auxValue .halfUp p ∧ auxValue .binary64 p = auxValue .halfUp p ∧
      auxValue .binary32 p = auxValue .halfUp p :=
  ⟨hundredthsHalfEven_eq_halfUp h, ieeeTimes255_of_not_tie (by decide) hp h,
    ieeeTimes255_of_not_tie (by decide) hp h⟩

/-- Settles O36: without a tie every mode rounds to the one nearest number, and five ties are left to evaluate. -/
theorem nativeDutyTies : Obligations.NativeDutyTies := by
  unfold Obligations.NativeDutyTies
  exact ⟨fun p _ => (nativeDuty_tie_iff p).trans (by omega), by decide,
    fun p hp h => auxValue_eq_halfUp_of_not_tie hp h, fun p _ => hundredthsTrunc_ne_halfUp_iff (255 * p),
    by decide, by decide, by decide, by decide⟩

/-! ## What SETA answers (R110) -/

theorem exec_seta_of_stopped {s : State} (h : s.run = false) (ch : Fin 4) (pct : Nat) :
    exec (.seta ch pct) s = .next (s.raise .notConfigured) := by
  simp only [exec, execSeta, h, Bool.not_false, if_true]

theorem exec_seta_of_invalid {s : State} (h : s.run = true) (ch : Fin 4) {pct : Nat} (hp : 100 < pct) :
    exec (.seta ch pct) s = .next (s.raise .range) := by
  simp [exec, execSeta, h, hp]

/-- Settles O22. -/
theorem setaFaults : Obligations.SetaFaults := by
  unfold Obligations.SetaFaults
  exact fun s ch pct => ⟨fun hstop => exec_seta_of_stopped hstop ch pct,
    fun hrun hp => exec_seta_of_invalid hrun ch hp⟩

/-- Settles O21, by whether the channel was enabled. -/
theorem setaWritesNativeDuty : Obligations.SetaWritesNativeDuty := by
  unfold Obligations.SetaWritesNativeDuty
  intro s ch pct hrun hp
  have hexec := exec_seta_of_run hrun ch hp
  refine ⟨_, toNat_auxValue _ hp, fun hmode => ?_, fun hen => ?_, fun hen => ?_, ?_, ?_⟩
  · rw [toNat_auxValue _ hp, hmode, auxValue_halfUp]
  · rw [hexec, State.setAux_of_enabled hen]
    rfl
  · rw [hexec, State.setAux_of_disabled hen]
    rfl
  · rintro rfl
    exact congrArg (BitVec.ofNat 8) (auxValue_zero _)
  · rintro rfl
    exact congrArg (BitVec.ofNat 8) (auxValue_hundred _)

/-! ## The auxiliary pin over an aux cycle (R116, R117) -/

theorem auxOut_of_fixed {s : State} {ch : Fin 4} (hen : s.auxEnabled ch = true) (hphase : s.auxPhase.unspec = false)
    (hact : s.auxAct[ch].unspec = false) :
    auxOut s ch = Pin.ofBool (decide (s.auxPhase.held.toNat < s.auxAct[ch].held.toNat)) := by
  rw [auxOut_of_enabled hen, Elem.read_of_fixed hphase, Elem.read_of_fixed hact, BitVec.ult]

/-- The pin at a phase of the cycle. -/
theorem auxOut_at_phase {s : State} {ch : Fin 4} {d : BitVec 8} (hen : s.auxEnabled ch = true)
    (hd : s.auxAct[ch] = ⟨d, false⟩) {k : Nat} (hk : k < 256) :
    auxOut { s with auxPhase := ⟨BitVec.ofNat 8 k, false⟩ } ch = Pin.ofBool (decide (k < d.toNat)) := by
  have hen' : State.auxEnabled { s with auxPhase := ⟨BitVec.ofNat 8 k, false⟩ } ch = true := hen
  rw [auxOut_of_fixed hen' rfl (by rw [hd]), hd, BitVec.toNat_ofNat, Nat.mod_eq_of_lt hk]

/-- A cycle of 255 phases with native duty `d` in use shows the pin high at the `d` phases below `d` (R117). -/
theorem countP_auxOut {s : State} {ch : Fin 4} {d : BitVec 8} (hen : s.auxEnabled ch = true)
    (hd : s.auxAct[ch] = ⟨d, false⟩) :
    (List.range 255).countP
      (fun k => auxOut { s with auxPhase := ⟨BitVec.ofNat 8 k, false⟩ } ch == .high) = d.toNat ∧
    (List.range 255).countP
      (fun k => auxOut { s with auxPhase := ⟨BitVec.ofNat 8 k, false⟩ } ch == .low) = 255 - d.toNat := by
  have hpin : ∀ k ∈ List.range 255,
      auxOut { s with auxPhase := ⟨BitVec.ofNat 8 k, false⟩ } ch = Pin.ofBool (decide (k < d.toNat)) := fun k hk =>
    auxOut_at_phase hen hd ((List.mem_range.mp hk).trans (by decide))
  have hmin : min d.toNat 255 = d.toNat := Nat.min_eq_left (by omega)
  have hbelow := (countP_range_lt d.toNat 255).trans hmin
  have habove := (countP_range_not_lt d.toNat 255).trans (congrArg (255 - ·) hmin)
  exact ⟨(List.countP_congr fun k hk => by rw [hpin k hk, Pin.ofBool_beq_high]).trans hbelow,
    (List.countP_congr fun k hk => by rw [hpin k hk, Pin.ofBool_beq_low]).trans habove⟩

/-- Settles O41: the high fraction's error is the native duty's, over 255. -/
theorem auxiliaryHighTime : Obligations.AuxiliaryHighTime := by
  unfold Obligations.AuxiliaryHighTime
  refine ⟨fun s ch d hen hd => countP_auxOut hen hd, fun p _ => ?_⟩
  have hnear := auxValue_halfUp_near p
  have herror : ((auxValue .halfUp p : Nat) : Rat) / 255 - (p : Rat) / 100
      = ((auxValue .halfUp p : Nat) - 255 / 100 * (p : Rat)) / 255 := by ring
  rw [herror, abs_div, abs_of_pos (by norm_num : (0 : Rat) < 255)]
  linarith

/-! ## The AUXCLK step (R114) -/

theorem auxclkStep_of_last {s : State} (hu : s.auxPhase.unspec = false) (h : s.auxPhase.held = 254) :
    auxclkStep s = (s.writeAuxPhase 0).loadAuxAct := by
  rw [auxclkStep, State.phaseNow, Elem.read_of_fixed hu, if_pos h]

theorem auxclkStep_of_ne_last {s : State} (hu : s.auxPhase.unspec = false) (h : s.auxPhase.held ≠ 254) :
    auxclkStep s = s.writeAuxPhase (s.auxPhase.held + 1) := by
  rw [auxclkStep, State.phaseNow, Elem.read_of_fixed hu, if_neg h]

/-- Settles O47. -/
theorem auxclkStepRule : Obligations.AuxclkStepRule := by
  unfold Obligations.AuxclkStepRule
  refine fun s => ⟨rfl, fun hturn hu => ?_⟩
  rw [step_of_nextTurn hturn, agentStep]
  refine ⟨fun hlast => ?_, fun hne => ?_⟩
  · rw [auxclkStep_of_last (s := s.begin s.nextTurn.2) hu hlast]
    rfl
  · rw [auxclkStep_of_ne_last (s := s.begin s.nextTurn.2) hu hne]
    rfl

/-! ## The aux cycle (R115, R118) -/

section
variable {s : State} (hu : s.auxPhase.unspec = false)
include hu

theorem State.writeAuxPhase_held : s.writeAuxPhase s.auxPhase.held = s := by
  rw [State.writeAuxPhase, Elem.fixed, ← hu]

/-- Up to 254 each `AUXCLK` step adds one to the phase and does nothing else. -/
theorem iterate_auxclkStep {k : Nat} (hk : s.auxPhase.held.toNat + k ≤ 254) :
    auxclkStep^[k] s = s.writeAuxPhase (BitVec.ofNat 8 (s.auxPhase.held.toNat + k)) := by
  induction k with
  | zero => simp [State.writeAuxPhase_held hu]
  | succ k ih =>
    have hne : BitVec.ofNat 8 (s.auxPhase.held.toNat + k) ≠ 254 := by bv_omega
    rw [Function.iterate_succ_apply', ih (by omega), auxclkStep_of_ne_last rfl hne]
    exact congrArg s.writeAuxPhase (BitVec.ofNat_add _ 1).symm

/-- The step after 254 returns the phase to 0 with the written duties in use. -/
theorem iterate_auxclkStep_wrap (hle : s.auxPhase.held.toNat ≤ 254) :
    auxclkStep^[255 - s.auxPhase.held.toNat] s = (s.writeAuxPhase 0).loadAuxAct := by
  have hlast : s.auxPhase.held.toNat + (254 - s.auxPhase.held.toNat) = 254 := Nat.add_sub_cancel' hle
  rw [Nat.succ_sub hle, Function.iterate_succ_apply', iterate_auxclkStep hu hlast.le, hlast]
  exact auxclkStep_of_last (s := s.writeAuxPhase 254) rfl rfl

end

/-- Settles O49: the steps to the wrap, then the steps from phase 0 back to the first phase. -/
theorem auxCycleLength : Obligations.AuxCycleLength := by
  unfold Obligations.AuxCycleLength
  intro s hu hle
  have hback := iterate_auxclkStep (s := (s.writeAuxPhase 0).loadAuxAct) rfl (k := s.auxPhase.held.toNat) (by simpa)
  calc auxclkStep^[255] s
      = auxclkStep^[s.auxPhase.held.toNat] (auxclkStep^[255 - s.auxPhase.held.toNat] s) := by
        rw [← Function.iterate_add_apply, Nat.add_sub_cancel' (by omega)]
    _ = (s.writeAuxPhase s.auxPhase.held).loadAuxAct := by
        rw [iterate_auxclkStep_wrap hu hle, hback]
        simp [State.writeAuxPhase, State.loadAuxAct]
    _ = { s with auxAct := s.auxDuty } := by
        rw [State.writeAuxPhase_held hu, State.loadAuxAct]

/-- Settles O50: SETA leaves the phase where it is in the cycle, and the wrap loads what SETA wrote. -/
theorem setaReachesPin : Obligations.SetaReachesPin := by
  unfold Obligations.SetaReachesPin
  intro s ch pct hrun hp hu hle
  refine ⟨_, _, exec_seta_of_run hrun ch hp, rfl, fun hen => ?_, fun hen => ?_⟩
  · exact ⟨State.setAux_auxAct_self_of_disabled hen _, by simp [State.auxEnabled_setAux]⟩
  · rw [State.setAux_of_enabled hen]
    have hwrap : ∀ d, auxclkStep^[255 - s.auxPhase.held.toNat] (s.writeAuxDuty ch d)
        = ((s.writeAuxDuty ch d).writeAuxPhase 0).loadAuxAct :=
      fun _ => iterate_auxclkStep_wrap (s := s.writeAuxDuty ch _) hu hle
    refine ⟨255 - s.auxPhase.held.toNat, by omega, Nat.sub_le _ _, fun k hk => ?_, ?_⟩
    · rw [iterate_auxclkStep (s := s.writeAuxDuty ch _) hu (by simp; omega)]
      rfl
    · rw [hwrap]
      exact ⟨rfl, Vector.getElem_set_self _⟩

end Sys2Proof.Machine
end

section
/-! The LED colour decoder (42_led_driver.md): what a colour's command writes and shows (R125, R126, R128), and the
patterns with two lines lit, which no enabled indicator shows (R127). -/

namespace Sys2Proof.Machine

open Sys2Proof.Safety

theorem Pin.ofBool_ne_z (b : Bool) : Pin.ofBool b ≠ .z := by cases b <;> decide

/-! ## What the lines show after LED (R126) -/

theorem ledOut_writeLed (s : State) (i : Fin 4) (v : BitVec 3) (c : LedColour) :
    ledOut (s.writeLed i v) i c = Pin.ofBool (v.getLsbD (LedColour.bit c)) := by
  have hen : (s.writeLed i v).ledEnabled i = true := by simp [State.ledEnabled_writeLed]
  have hline : (s.writeLed i v).ledLine[i] = .fixed v := Vector.getElem_set_self _
  rw [ledOut_of_fixed hen (by rw [hline]; rfl), hline, Elem.fixed_held]

/-- One row of R126, whose tuple is the bits of the colour's pattern. -/
theorem led_code_writes_and_shows (s : State) (ind : Fin 4) (c : Color) :
    ∃ t, exec (.led ind c.code) s = .next t ∧
      t = { s with
            ledLine := s.ledLine.set ind ⟨pattern c, false⟩
            ledEn := s.ledEn ||| BitVec.twoPow 4 ind.val } ∧
      ledOut t ind .red = Pin.ofBool ((pattern c).getLsbD 2) ∧
      ledOut t ind .green = Pin.ofBool ((pattern c).getLsbD 1) ∧
      ledOut t ind .blue = Pin.ofBool ((pattern c).getLsbD 0) :=
  ⟨_, exec_led_code s ind c, rfl, ledOut_writeLed s ind _ .red, ledOut_writeLed s ind _ .green,
    ledOut_writeLed s ind _ .blue⟩

/-- Settles O23: the rows of the table are the five colours. -/
theorem ledAppliesPattern : Obligations.LedAppliesPattern := by
  unfold Obligations.LedAppliesPattern
  intro s ind
  have hrow := led_code_writes_and_shows s ind
  simp only [List.forall_mem_cons]
  exact ⟨hrow .off, hrow .red, hrow .green, hrow .blue, hrow .white, nofun⟩

/-! ## An enabled indicator (R127) -/

theorem FivePatterns.ne_two_lit {v : BitVec 3} (h : FivePatterns v) : v ≠ 0b110 ∧ v ≠ 0b011 ∧ v ≠ 0b101 := by
  rcases h with rfl | rfl | rfl | rfl | rfl <;> decide

theorem FivePatterns.count_high_ne_two {v : BitVec 3} (h : FivePatterns v) :
    [Pin.ofBool (v.getLsbD 2), Pin.ofBool (v.getLsbD 1), Pin.ofBool (v.getLsbD 0)].count .high ≠ 2 := by
  rcases h with rfl | rfl | rfl | rfl | rfl <;> decide

/-- Settles O53: the invariant, which the step keeps, gives an enabled indicator one of the five patterns. -/
theorem enabledLedShowsColour : Obligations.EnabledLedShowsColour := by
  unfold Obligations.EnabledLedShowsColour
  intro s t hinv hstep i hen
  obtain ⟨hu, hfive⟩ := (stepKeepsInvariant s t hinv hstep).led i hen
  obtain ⟨h110, h011, h101⟩ := FivePatterns.ne_two_lit hfive
  simp only [ledOut_of_fixed hen hu, LedColour.bit]
  exact ⟨hu, h110, h011, h101, Pin.ofBool_ne_z _, Pin.ofBool_ne_z _, Pin.ofBool_ne_z _,
    FivePatterns.count_high_ne_two hfive⟩

end Sys2Proof.Machine
end

section
/-! Exceptions (60_exceptions.md): which check of a word fails first and that it raises one fault at most (R145), and
words that meet the host's duties (R160), which execute without fault (R163). -/

namespace Sys2Proof.Machine

/-! ## One fault at most (R145) -/

theorem CommandResult.fault_eq_or_raised {s t : State} {i : Instr} (h : CommandResult s i t) :
    t.fault = s.fault ∨ ∃ c, t = s.raise c := by
  cases h with
  | faulted i c => exact .inr ⟨c, rfl⟩
  | configured => exact .inl rfl
  | primary => exact .inl rfl
  | auxiliary => exact .inl (by rw [State.setAux_eq])
  | colour => exact .inl rfl

theorem exists_issueWord_fault_eq_or_raised (w : Word) (s : State) :
    ∃ t, issueWord w s = .next t ∧
      (t.fault = s.fault ∨ ∃ c, t = State.raise { s with hostIndex := s.hostIndex + 1 } c) := by
  cases hd : decode w with
  | error e => exact ⟨_, issueWord_of_error hd s, .inr ⟨.illegal, rfl⟩⟩
  | ok i =>
    obtain ⟨t, ht, hr⟩ := exec_result i { s with hostIndex := s.hostIndex + 1 }
    exact ⟨t, (issueWord_of_ok hd s).trans ht, hr.fault_eq_or_raised⟩

/-- What issuing a word leaves is what its command leaves, the host's index advanced (R24, R50). -/
theorem eq_of_issueWord {s t u : State} {w : Word} {i : Instr} (h : issueWord w s = .next t) (hd : decode w = .ok i)
    (he : exec i { s with hostIndex := s.hostIndex + 1 } = .next u) : t = u :=
  Host.Outcome.next.inj (h.symm.trans ((issueWord_of_ok hd s).trans he))

/-- Settles O28: the check that fails first gives the one answer of the word. -/
theorem faultPriority : Obligations.FaultPriority := by
  unfold Obligations.FaultPriority
  intro w s
  obtain ⟨t, ht, hone⟩ := exists_issueWord_fault_eq_or_raised w s
  refine ⟨t, ht, fun e hd => ?_, fun hd hrun => ?_, fun pct hd => ⟨fun hstop => ?_, fun hrun hp => ?_⟩,
    fun ind col hd hcol => ?_, hone⟩
  · exact Host.Outcome.next.inj (ht.symm.trans (issueWord_of_error hd s))
  · exact eq_of_issueWord ht hd (exec_cfgp_of_run hrun)
  · have hstop' : State.run { s with hostIndex := s.hostIndex + 1 } = false := hstop
    rcases hd with hd | ⟨ch, hd⟩
    · exact eq_of_issueWord ht hd (exec_setp_of_stopped hstop' pct)
    · exact eq_of_issueWord ht hd (exec_seta_of_stopped hstop' ch pct)
  · have hrun' : State.run { s with hostIndex := s.hostIndex + 1 } = true := hrun
    rcases hd with hd | ⟨ch, hd⟩
    · exact eq_of_issueWord ht hd (exec_setp_of_invalid hrun' hp)
    · exact eq_of_issueWord ht hd (exec_seta_of_invalid hrun' ch hp)
  · exact eq_of_issueWord ht hd (exec_led_of_invalid _ ind hcol)

end Sys2Proof.Machine

namespace Sys2Proof.Safety

open Sys2Proof.Machine

/-! ## A word that meets the host's duties (R160, R163) -/

/-- The duties of R160 for a word that is decoded already. -/
def CommandMeetsDuty (s : State) : Instr → Prop
  | .cfgp => s.run = false
  | .setp pct => s.run = true ∧ pct ≤ 100
  | .seta _ pct => s.run = true ∧ pct ≤ 100
  | .led _ col => ∃ c : Color, col = c.code

theorem exists_code_iff {col : Nat} : (∃ c : Color, col = c.code) ↔ col ≤ 4 := by
  rw [← Nat.not_lt, ← colorOfCode_eq_none, ← ne_eq, Option.ne_none_iff_exists']
  simp only [colorOfCode_eq_some]

theorem meetsDuty_iff {s : State} {w : Word} :
    meetsDuty s w = true ↔ ∃ i, decode w = .ok i ∧ CommandMeetsDuty s i := by
  unfold meetsDuty
  cases decode w with
  | error e => simp
  | ok i => cases i <;> simp [CommandMeetsDuty, exists_code_iff]

/-- Settles O31, by the command the word decodes to. -/
theorem dutifulWordTakesEffect : Obligations.DutifulWordTakesEffect := by
  unfold Obligations.DutifulWordTakesEffect
  intro w s h
  obtain ⟨i, hd, hi⟩ := (meetsDuty_iff (s := { s with hostIndex := s.hostIndex + 1 })).mp h
  have hissue := issueWord_of_ok hd s
  cases i with
  | cfgp => exact ⟨_, _, hd, hissue.trans (exec_cfgp_of_stopped hi), rfl, rfl⟩
  | setp pct =>
    obtain ⟨hrun, hp⟩ := hi
    exact ⟨_, _, hd, hissue.trans (exec_setp_of_run hrun hp), rfl, rfl⟩
  | seta ch pct =>
    obtain ⟨hrun, hp⟩ := hi
    exact ⟨_, _, hd, hissue.trans (exec_seta_of_run hrun ch hp), by rw [State.setAux_eq], rfl⟩
  | led ind col =>
    obtain ⟨c, rfl⟩ := hi
    exact ⟨_, _, hd, hissue.trans (exec_led_code _ ind c), rfl, c, rfl, rfl⟩

theorem fault_of_issueWord_of_meetsDuty {s t : State} {w : Word} (hduty : meetsDuty s w = true)
    (h : issueWord w s = .next t) : t.fault = s.fault := by
  obtain ⟨i, u, -, hu, hfault, -⟩ := dutifulWordTakesEffect w s hduty
  rwa [Host.Outcome.next.inj (h.symm.trans hu)]

/-! ## A dutiful host (R143, R163) -/

/-- The word `HOST`'s turn issues is the one that arrives, whole or with its second byte (R50, R52). -/
theorem issuedWord_of_arrives {s : State} {turns : List Agent} {w : Word} {rest : List PortEvent}
    {half : Option Byte} (hturn : s.nextTurn.1 = .host) (ha : Arrives (s.begin turns) w rest half) :
    issuedWord s = some w := by
  rw [issuedWord, if_pos hturn]
  cases ha with
  | whole hinbox => rw [show s.inbox = _ from hinbox]
  | pair hhalf hinbox =>
    rw [show s.inbox = _ from hinbox, show s.half = _ from hhalf]
    rfl

/-- Only a word that fails the host's duties raises a fault (R140, R163). -/
theorem fault_eq_or_zero_of_stepResult {s t : State} {a : Agent} (h : StepResult s a t)
    (hduty : ∀ w rest half, a = .host → Arrives s w rest half → meetsDuty s w = true) :
    t.fault = s.fault ∨ t.fault = 0 := by
  cases h with
  | carrier => exact .inl (by rw [carrierStep_frame])
  | auxclk => exact .inl (by rw [auxclkStep_frame])
  | @command w rest half i _ ha hd _ he =>
    exact .inl (fault_of_issueWord_of_meetsDuty (s := { s with inbox := rest, half := half })
      (hduty w rest half rfl ha) ((issueWord_of_ok hd _).trans he))
  | illegal ha hd =>
    obtain ⟨i, hok, -⟩ := meetsDuty_iff.mp (hduty _ _ _ rfl ha)
    rw [hd] at hok
    cases hok
  | firstByte => exact .inl rfl
  | reset => exact .inr rfl

/-- Settles O32: the step of whichever agent has the turn keeps `FAULT` or resets it. -/
theorem dutifulHostStaysClean : Obligations.DutifulHostStaysClean := by
  unfold Obligations.DutifulHostStaysClean
  intro s t hclean hduty hstep
  have hfault := fault_eq_or_zero_of_stepResult (StepResult.of_step hstep)
    fun w _ _ hturn ha => hduty w (issuedWord_of_arrives hturn ha)
  exact hfault.elim (fun hkept => hkept.trans hclean) id

end Sys2Proof.Safety
end

section
/-! Reset and hazards (70_reset_and_hazards.md): what an unconfigured block does until a command comes (R171), and
commands with different targets, which may be issued in either order (R175). -/

namespace Sys2Proof.Machine

open Sys2Proof.Safety

/-! ## Until a command comes (R171) -/

theorem State.run_of_tcfg_zero {s : State} (h : s.tcfg = 0) : s.run = false := by simp [State.run, h]

theorem State.oe_of_tcfg_zero {s : State} (h : s.tcfg = 0) : s.oe = false := by simp [State.oe, h]

theorem State.auxEnabled_of_auxEn_zero {s : State} (h : s.auxEn = 0) (k : Fin 4) : s.auxEnabled k = false := by
  simp [State.auxEnabled, h]

theorem State.ledEnabled_of_ledEn_zero {s : State} (h : s.ledEn = 0) (i : Fin 4) : s.ledEnabled i = false := by
  simp [State.ledEnabled, h]

/-- With nothing waiting and the timer stopped, `AUXCLK` is the only agent enabled (R7, R96, R114). -/
theorem State.nextTurn_auxclk {s : State} (hinbox : s.inbox = []) (hstop : s.run = false) :
    s.nextTurn.1 = .auxclk := by
  have hen := s.nextTurn_enabled
  cases ha : s.nextTurn.1 with
  | host => simp [ha, State.enabled, hinbox] at hen
  | carrier => simp [ha, State.enabled, hstop] at hen
  | auxclk => rfl

theorem step_of_idle {s : State} (hinbox : s.inbox = []) (hstop : s.run = false) :
    step s = .next (auxclkStep (s.begin s.nextTurn.2)) :=
  step_of_nextTurn (State.nextTurn_auxclk hinbox hstop)

/-- Settles O16: the step is `AUXCLK`'s, and its frame holds all that decides whether a pin is driven. -/
theorem idleUntilCommand : Obligations.IdleUntilCommand := by
  unfold Obligations.IdleUntilCommand
  intro s t hinbox htcfg haux hled hstep
  rw [step_of_idle hinbox (State.run_of_tcfg_zero htcfg)] at hstep
  cases hstep
  refine ⟨⟨s.nextTurn.2, rfl⟩, ?_⟩
  rw [auxclkStep_frame]
  exact ⟨hinbox, htcfg, haux, hled, rfl, priOut_of_undriven (State.oe_of_tcfg_zero htcfg),
    fun k => auxOut_of_disabled (State.auxEnabled_of_auxEn_zero haux k),
    fun i => ledOut_of_disabled (State.ledEnabled_of_ledEn_zero hled i)⟩

/-! ## Effects on different targets (R175) -/

theorem State.setAux_writeCmp (s : State) (ch : Fin 4) (d : BitVec 8) (v : BitVec 16) :
    (s.writeCmp v).setAux ch d = (s.setAux ch d).writeCmp v := by
  rw [State.setAux_eq, State.setAux_eq]
  rfl

theorem State.setAux_writeLed (s : State) (ch i : Fin 4) (d : BitVec 8) (v : BitVec 3) :
    (s.writeLed i v).setAux ch d = (s.setAux ch d).writeLed i v := by
  rw [State.setAux_eq, State.setAux_eq]
  rfl

/-- Whether a SETA starts its channel does not depend on what another channel's SETA did. -/
theorem State.setAux_comm (s : State) {ch k : Fin 4} (h : ch ≠ k) (d e : BitVec 8) :
    (s.setAux ch d).setAux k e = (s.setAux k e).setAux ch d := by
  obtain ⟨-, -, hk⟩ := s.setAux_other_channel h.symm d
  obtain ⟨-, -, hch⟩ := s.setAux_other_channel h e
  have hval : ch.val ≠ k.val := Fin.val_ne_of_ne h
  rw [State.setAux_eq (s.setAux ch d), State.setAux_eq (s.setAux k e), hk, hch, State.setAux_eq, State.setAux_eq]
  congr 1
  · exact Vector.set_comm _ _ hval
  · dsimp only
    split_ifs
    exacts [rfl, rfl, rfl, Vector.set_comm _ _ hval]
  · dsimp only
    split_ifs
    exacts [rfl, rfl, rfl, setBit_comm _ _ _]

theorem State.writeLed_comm (s : State) {i k : Fin 4} (h : i ≠ k) (v w : BitVec 3) :
    (s.writeLed i v).writeLed k w = (s.writeLed k w).writeLed i v := by
  have hval : i.val ≠ k.val := Fin.val_ne_of_ne h
  simp only [State.writeLed]
  rw [Vector.set_comm _ _ hval, setBit_comm]

/-- The maps of the state that a command other than CFGP may be: a fault raised, or a write of its target. -/
inductive EffectOf : Instr → (State → State) → Prop where
  | fault (i : Instr) (c : FaultCode) : EffectOf i (·.raise c)
  | compare (pct : Nat) (v : BitVec 16) : EffectOf (.setp pct) (·.writeCmp v)
  | duty (ch : Fin 4) (pct : Nat) (d : BitVec 8) : EffectOf (.seta ch pct) (·.setAux ch d)
  | lines (ind : Fin 4) (col : Nat) (v : BitVec 3) : EffectOf (.led ind col) (·.writeLed ind v)

/-- Which map a command is depends on `TCFG.RUN` and the parameters only (R92, R110, R125). -/
theorem exists_effectOf {i : Instr} (hi : i ≠ .cfgp) (s : State) :
    ∃ f, EffectOf i f ∧ ∀ u : State, u.run = s.run → u.params = s.params → exec i u = .next (f u) := by
  cases i with
  | cfgp => exact absurd rfl hi
  | setp pct =>
    cases hrun : s.run with
    | false => exact ⟨_, .fault _ .notConfigured, fun u hu _ => exec_setp_of_stopped hu pct⟩
    | true =>
      by_cases hp : 100 < pct
      · exact ⟨_, .fault _ .range, fun u hu _ => exec_setp_of_invalid hu hp⟩
      · exact ⟨_, .compare pct _, fun u hu hparams => hparams ▸ exec_setp_of_run hu (Nat.not_lt.mp hp)⟩
  | seta ch pct =>
    cases hrun : s.run with
    | false => exact ⟨_, .fault _ .notConfigured, fun u hu _ => exec_seta_of_stopped hu ch pct⟩
    | true =>
      by_cases hp : 100 < pct
      · exact ⟨_, .fault _ .range, fun u hu _ => exec_seta_of_invalid hu ch hp⟩
      · exact ⟨_, .duty ch pct _, fun u hu hparams => hparams ▸ exec_seta_of_run hu ch (Nat.not_lt.mp hp)⟩
  | led ind col =>
    by_cases hcol : 4 < col
    · exact ⟨_, .fault _ .badColor, fun u _ _ => exec_led_of_invalid u ind hcol⟩
    · obtain ⟨c, rfl⟩ := exists_code_iff.mpr (Nat.not_lt.mp hcol)
      exact ⟨_, .lines ind _ _, fun u _ _ => exec_led_code u ind c⟩

theorem EffectOf.run_params {i : Instr} {f : State → State} (h : EffectOf i f) (s : State) :
    (f s).run = s.run ∧ (f s).params = s.params := by
  cases h with
  | fault => exact ⟨rfl, rfl⟩
  | compare => exact ⟨rfl, rfl⟩
  | duty =>
    dsimp only
    rw [State.setAux_eq]
    exact ⟨rfl, rfl⟩
  | lines => exact ⟨rfl, rfl⟩

theorem EffectOf.apply_raise {i : Instr} {f : State → State} (h : EffectOf i f) (s : State) (c : FaultCode) :
    f (s.raise c) = (f s).raise c := by
  have hraise := commandMap_raise c
  cases h with
  | fault _ d => exact hraise.raise s d
  | compare _ v => exact hraise.writeCmp s v
  | duty ch _ d => exact hraise.setAux s ch d
  | lines i _ v => exact hraise.writeLed s i v

/-- Effects of commands with different targets commute: of what they write, an effect reads at most the enable of its
own channel (R110, R175). -/
theorem EffectOf.comm {i j : Instr} {f g : State → State} (hf : EffectOf i f) (hg : EffectOf j g)
    (h : sameTarget i j = false) (s : State) : g (f s) = f (g s) := by
  cases hf with
  | fault _ c => exact hg.apply_raise s c
  | compare pct v =>
    cases hg with
    | fault _ c => exact ((EffectOf.compare pct v).apply_raise s c).symm
    | compare => cases h
    | duty ch _ d => exact s.setAux_writeCmp ch d v
    | lines => rfl
  | duty ch pct d =>
    cases hg with
    | fault _ c => exact ((EffectOf.duty ch pct d).apply_raise s c).symm
    | compare _ v => exact (s.setAux_writeCmp ch d v).symm
    | duty k _ e => exact s.setAux_comm (of_decide_eq_false h) d e
    | lines i _ v => exact (s.setAux_writeLed ch i d v).symm
  | lines i col v =>
    cases hg with
    | fault _ c => exact ((EffectOf.lines i col v).apply_raise s c).symm
    | compare => rfl
    | duty ch _ d => exact s.setAux_writeLed ch i d v
    | lines k _ w => exact s.writeLed_comm (of_decide_eq_false h) v w

/-- Settles O56: each command is the same map before and after the other, and the two maps commute. -/
theorem commandsCommute : Obligations.CommandsCommute := by
  unfold Obligations.CommandsCommute
  intro i j s hi hj htarget
  obtain ⟨f, hf, hexeci⟩ := exists_effectOf hi s
  obtain ⟨g, hg, hexecj⟩ := exists_effectOf hj s
  obtain ⟨hfrun, hfparams⟩ := hf.run_params s
  obtain ⟨hgrun, hgparams⟩ := hg.run_params s
  refine ⟨f s, g s, g (f s), hexeci s rfl rfl, hexecj _ hfrun hfparams, hexecj s rfl rfl, ?_⟩
  rw [hf.comm hg htarget]
  exact hexeci _ hgrun hgparams

end Sys2Proof.Machine
end
